-- ==== Sys2Proof/Word.lean ====
section
/-! DEFINITION. The two word types of the framing engine: the byte (every access moves one byte,
R68 in spec/20_memory.md) and the 16-bit frame length (R23 in spec/10_state.md). -/

namespace Sys2Proof

/-- A byte, an unsigned 8-bit value (R14). -/
abbrev Byte := BitVec 8

/-- A 16-bit unsigned value: a frame length (R23) or a 16-bit address (R254). -/
abbrev Half := BitVec 16

end Sys2Proof
end

