-- ==== Sys2Proof/Machine/Bytes.lean ====
section
/-! DEFINITION. The byte constants of the protocol and the byte, half-word and field helpers that
every later file uses (R8, R102, R104, R105, R122, R155, R254, R259). -/

namespace Sys2Proof.Machine

/-- `START`, the start delimiter (R8, R104). -/
def startByte : Byte := 0x7E

/-- `ESCAPE`, the escape prefix (R8, R104). -/
def escapeByte : Byte := 0x7D

/-- `XON` (R8, R104). -/
def xonByte : Byte := 0x11

/-- `XOFF` (R8, R104). -/
def xoffByte : Byte := 0x13

/-- The set `RESERVED = {0x7E, 0x7D, 0x11, 0x13}` (R8). -/
def isReserved (b : Byte) : Bool :=
  b == startByte || b == escapeByte || b == xonByte || b == xoffByte

/-- Escaping and de-escaping are one operation, the xor with the mask `0x20` (R105, R122). -/
def escapeXor (b : Byte) : Byte := b ^^^ 0x20

/-- The second wire bytes `5E`, `5D`, `31`, `33` of the four canonical escape sequences (R105):
those whose de-escaped value is reserved. -/
def isEscapeImage (e : Byte) : Bool := isReserved (escapeXor e)

/-- `v[15:8]` of a 16-bit value (R14, R146). -/
def halfMsb (h : Half) : Byte := h.extractLsb' 8 8

/-- `v[7:0]` of a 16-bit value (R14, R147). -/
def halfLsb (h : Half) : Byte := h.extractLsb' 0 8

/-- `(v << 8) | (h & 0x00FF)`: the most significant byte replaced (R102, R148). -/
def withMsb (v : Byte) (h : Half) : Half := (v.setWidth 16 <<< 8) ||| (h &&& 0x00FF)

/-- `(h & 0xFF00) | v`: the least significant byte replaced (R102, R149). -/
def withLsb (v : Byte) (h : Half) : Half := (h &&& 0xFF00) ||| v.setWidth 16

/-- The checksum byte `0xFF - sum` of a running sum (R103, R155). -/
def checksumOf (sum : Byte) : Byte := 0xFF - sum

/-- The growth slack of the frame store (R7). -/
def slack : Nat := 10

/-- The capacity a write at index `i` grows to, `min(i + 10, M)` (R142). -/
def grownCapacity (i maxLen : Nat) : Nat := min (i + slack) maxLen

/-- Wire offset to frame index, `i = idx - 3` (R62, R122). -/
def frameIndex (idx : Nat) : Nat := idx - 3

/-- The wire offset of the checksum of a frame of `len` bytes, `frameLength + 3` (R101, R187). -/
def checksumOffset (len : Half) : Nat := len.toNat + 3

/-- The bytes of a 16-bit field in ascending frame index, in the order that the parameter
`FIELD_MSB_FIRST` gives (R7, R259): most significant byte first where it is true. DESIGN CHOICE
(log 21): what false means, least significant byte first, is the model's. -/
def fieldBytes16 (msbFirst : Bool) (v : Half) : List Byte :=
  if msbFirst then [halfMsb v, halfLsb v] else [halfLsb v, halfMsb v]

/-- The 16-bit field that two bytes at ascending frame indices stand for (R7, R259), in the order of
`fieldBytes16` (log 21). -/
def field16 (msbFirst : Bool) (first second : Byte) : Half :=
  if msbFirst then first ++ second else second ++ first

/-- The four bytes of a 32-bit half of a 64-bit address, most significant first (R254). -/
def wordBytes (w : BitVec 32) : List Byte :=
  [w.extractLsb' 24 8, w.extractLsb' 16 8, w.extractLsb' 8 8, w.extractLsb' 0 8]

/-- The eight bytes of a 64-bit address in ascending frame index (R242 to R244, R259): most
significant byte first where `FIELD_MSB_FIRST` is true. DESIGN CHOICE (log 21): the spec says only what
true means; false is the model's full reversal of the eight bytes, the low half first and the least
significant byte of each half first. -/
def fieldBytes64 (msbFirst : Bool) (high low : BitVec 32) : List Byte :=
  let bytes := wordBytes high ++ wordBytes low
  if msbFirst then bytes else bytes.reverse

/-- The value of a list of bytes, most significant first. -/
def bytesValue (bytes : List Byte) : Nat := bytes.foldl (fun acc b => acc * 256 + b.toNat) 0

/-- The high and the low 32-bit half of the address that eight bytes at ascending frame indices
stand for (R254, R259), in the order of `fieldBytes64` (log 21). -/
def field64 (msbFirst : Bool) (bytes : List Byte) : BitVec 32 × BitVec 32 :=
  let ordered := if msbFirst then bytes else bytes.reverse
  (BitVec.ofNat 32 (bytesValue (ordered.take 4)), BitVec.ofNat 32 (bytesValue (ordered.drop 4)))

end Sys2Proof.Machine
end

