-- ==== Sys2Proof/Config.lean ====
section
/-! DEFINITION. The parameters of the block (R7 in spec/00_scope.md), constant from construction on,
and the free values: opaque constants, so that no proof can learn what they are. -/

namespace Sys2Proof

/-- The implementation parameters of R7. Each is fixed at construction; the fixed constant `SLACK`
is `Machine.slack`. -/
structure Config where
  /-- `M_IN`, the ceiling of the Incoming packet. -/
  mIn : Nat
  /-- `M_OUT`, the ceiling of the Outgoing packet. -/
  mOut : Nat
  /-- `ESCAPED_MODE`, byte-stuffing in both directions. -/
  escapedMode : Bool
  /-- `C_INIT`, the capacity of both packets at construction. -/
  cInit : Nat
  /-- `ACK_ENABLED` of the session layer: frame ids are sequenced. -/
  ackEnabled : Bool
  /-- `FIELD_MSB_FIRST` of the field layer. -/
  fieldMsbFirst : Bool
  /-- `FRAME_ID_INIT` of the session layer: `lastFrameId` at construction. -/
  frameIdInit : Byte
deriving DecidableEq, Repr

/-- The defaults of R7. DESIGN CHOICE (log 2): the spec states no default of `ACK_ENABLED` and
`FRAME_ID_INIT`. -/
def Config.default : Config :=
  { mIn := 50, mOut := 50, escapedMode := true, cInit := 0, ackEnabled := true,
    fieldMsbFirst := true, frameIdInit := 0 }

/-- `C_INIT` is at most `M` (R7), for both packets. -/
abbrev Config.wf (c : Config) : Prop := c.cInit ≤ c.mIn ∧ c.cInit ≤ c.mOut

/-- The byte that the `n`-th read of a never-written cell below the capacity gives: any value, drawn
afresh at each read (R73, U1, D8; log 1). -/
opaque Config.freeByte : Nat → Byte

/-- The frame length left by a write whose index plus one does not fit 16 bits, which only a packet
with `M > 65535` can meet: the spec states no value (R155; log 3). -/
opaque Config.freeLength : Nat → Half

/-- The high 32-bit half of the 64-bit broadcast address, the default value of an Address64. The spec
gives no number for it (R254, N15; log 22). -/
opaque Config.broadcastHigh : BitVec 32

/-- The low 32-bit half of the 64-bit broadcast address (R254, N15; log 22). -/
opaque Config.broadcastLow : BitVec 32

/-- The 16-bit broadcast address, the default value of an Address16 (R254, N15; log 22). -/
opaque Config.broadcast16 : Half

/-- `TXSTATUS_ADDR16`, the value of the TX Status addr16 accessor: a function of the frame (its
written cells and its length), unconstrained (R7, R255, D22; log 4). -/
opaque Config.txStatusAddr16 : List (Nat × Byte) → Half → Half

end Sys2Proof
end

