-- ==== Sys2Proof/Syntax.lean ====
section
/-! DEFINITION. The syntax of the framing engine: one constructor of `Instr` per row of
spec/opcode_table.json, in the table's six groups (R119 in spec/30_encoding.md). -/

namespace Sys2Proof

/-- The two packets of a session (R20). -/
inductive PacketId where
  /-- `IN`, the Incoming packet: filled by the decoder, read by the host. -/
  | incoming
  /-- `OUT`, the Outgoing packet: written by the host, read by the encoder. -/
  | outgoing
deriving DecidableEq, Repr

/-- An Address64 value: two 32-bit halves (R254). -/
structure Address64 where
  high : BitVec 32
  low : BitVec 32
deriving DecidableEq, Repr

/-- What the host gives the prepare operation of an AT Command (R241, R251). -/
structure AtCommandArgs where
  command0 : Byte
  command1 : Byte
  payload : List Byte
deriving DecidableEq, Repr

/-- What the host gives the prepare operation of a Transmit Request (R243, R251). An address it does
not give has the default value of its type (R254; log 22). -/
structure TransmitRequestArgs where
  addr64 : Option Address64
  addr16 : Option Half
  radius : Byte
  options : Byte
  payload : List Byte
deriving DecidableEq, Repr

/-- What the host gives the prepare operation of a Remote AT Command (R242, R251). An address it does
not give has the default value of its type (R254; log 22). -/
structure RemoteAtCommandArgs where
  addr64 : Option Address64
  addr16 : Option Half
  options : Byte
  command0 : Byte
  command1 : Byte
  payload : List Byte
deriving DecidableEq, Repr

/-- The two operand forms of a frame-type row whose layout is outbound (R260). -/
inductive OutboundForm (α : Type) where
  /-- The code itself, met by the decoder as the frame-type byte (wire offset 3, R114, R115). -/
  | wire
  /-- The field layer's prepare operation, which builds the frame in `OUT` (R251). -/
  | prepare (args : α)
deriving DecidableEq, Repr

/-- The two operand forms of a frame-type row whose layout is inbound (R260). -/
inductive InboundForm where
  /-- The code itself, met by the decoder as the frame-type byte (wire offset 3, R114, R115). -/
  | wire
  /-- The field layer's field decoder, which reads the frame in `IN` (R249, R258). -/
  | read
deriving DecidableEq, Repr

/-- The instructions: one constructor per row of spec/opcode_table.json.

Groups W and X are the units of the received wire stream (R124), group D the decoder's steps
(R109), group E the encoder's steps (R210), group H the host operations (R116), group T the
frame-type codes (R114). -/
inductive Instr where
  -- group W: raw byte classes
  | start
  | escape
  | xon
  | xoff
  | data (v : Byte)
  -- group X: escape sequences
  | escStart
  | escEscape
  | escXon
  | escXoff
  | escGeneric (x : Byte)
  -- group D: decoder steps
  | decEntryRestart
  | decEntryResume1
  | decEntryContinue
  | decFetch
  | decUnesc (r : Byte)
  | decEscInline
  | decEscSuspend
  | decErrStart
  | decCsum (b : Byte)
  | decSof
  | decErrNostart (b : Byte)
  | decLenMsb (b : Byte)
  | decLenLsb (b : Byte)
  | decErrOverlen (b : Byte)
  | decCkOk (b : Byte)
  | decCkFail (b : Byte)
  | decStore (b : Byte)
  -- group E: encoder steps
  | encStart
  | encPutRaw (b : Byte)
  | encPutEsc (e : Byte)
  | encLenMsb
  | encLenLsb
  | encData
  | encCsum
  | encFlush
  -- group H: host operations
  | bufEnsure (p : PacketId) (size : Nat)
  | bufGet (p : PacketId) (i : Nat)
  | bufSet (p : PacketId) (i : Nat) (v : Byte)
  | pktGet (p : PacketId) (i : Nat)
  | pktSet (p : PacketId) (i : Nat) (v : Byte)
  | pktSetn (p : PacketId) (first : Nat) (bytes : List Byte) (n : Nat)
  | pktLenMsb (p : PacketId)
  | pktLenLsb (p : PacketId)
  | pktSetLenMsb (p : PacketId) (v : Byte)
  | pktSetLenLsb (p : PacketId) (v : Byte)
  | pktCalcChecksum (p : PacketId)
  | pktReset (p : PacketId)
  | pktIsError (p : PacketId)
  | pktErrorCode (p : PacketId)
  | pktFrameLength (p : PacketId)
  | pktChecksum (p : PacketId)
  | decPoll
  | decIsComplete
  | decReset
  | encSerialize
  -- group T: frame-type codes
  | ftAtCommand (f : OutboundForm AtCommandArgs)
  | ftAtCommandQueued
  | ftTransmitRequest (f : OutboundForm TransmitRequestArgs)
  | ftExplicitAddressing
  | ftRemoteAtCommand (f : OutboundForm RemoteAtCommandArgs)
  | ftAtCommandResponse (f : InboundForm)
  | ftModemStatus (f : InboundForm)
  | ftTxStatus (f : InboundForm)
  | ftRxReceived (f : InboundForm)
  | ftExplicitRx
  | ftIoRx
  | ftNodeId
  | ftRemoteAtCommandResponse (f : InboundForm)
deriving DecidableEq, Repr

end Sys2Proof
end

