-- ==== Sys2Proof/Machine/State.lean ====
section
/-! DEFINITION. The state of the framing engine (spec/10_state.md), the host's and the transport's
inputs held as plain data, the reasons a step can stop, and the state after construction. -/

namespace Sys2Proof.Machine

/-- A frame store (R21): the written cells, as index and byte, in strictly rising index. A cell not
listed is `UNWRITTEN`. -/
abbrev Memory := List Host.Cell

/-- The seven error codes (R113, R281). -/
inductive ErrorCode where
  | noError
  | reallocationFailed
  | unexpectedPacketStart
  | packetIncomplete
  | maxFrameLengthExceeded
  | frameLengthExceeded
  | checksumFailure
deriving DecidableEq, Repr

/-- A Packet (R20): the state of R21 to R25. Its ceiling `M` (R26) is a parameter. -/
structure Packet where
  /-- `p.buf`, the frame store (R21). -/
  buf : Memory
  /-- `p.C`, the capacity (R22). -/
  cap : Nat
  /-- `p.frameLength` (R23). -/
  frameLength : Half
  /-- `p.checksum`, the stored checksum byte (R24). -/
  checksum : Byte
  /-- `p.errorCode`, the sticky error (R25). -/
  errorCode : ErrorCode
deriving DecidableEq, Repr

/-- The decode cursor (R28 to R32). -/
structure Cursor where
  /-- `DEC.idx`, the wire cursor (R28). -/
  idx : Nat
  /-- `DEC.escaping`, an escape whose partner has not arrived (R30). -/
  escaping : Bool
  /-- `DEC.csum`, the running checksum accumulator (R31). -/
  csum : Byte
  /-- `DEC.complete`, the completion flag (R32). -/
  complete : Bool
deriving DecidableEq, Repr

/-- How far a byte step has come (the orders of R109). -/
inductive ByteOrder where
  /-- Orders 1 and 2: de-escape and out-of-place start detection. -/
  | escape
  /-- Order 3: checksum accumulation. -/
  | sum
  /-- Order 4: dispatch by `DEC.idx`. -/
  | dispatch
deriving DecidableEq, Repr

/-- The byte in flight inside a byte step: the locals `b` and `fromEscape` of R170, and the order
that comes next. -/
structure Flight where
  byte : Byte
  fromEscape : Bool
  order : ByteOrder
deriving DecidableEq, Repr

/-- The step of a running `ENC.SERIALIZE` that comes next (R210). -/
inductive EncStage where
  | start
  | lenMsb
  | lenLsb
  | data
  | flush
deriving DecidableEq, Repr

/-- The encoder's working state (R34), which exists only while `ENC.SERIALIZE` runs. -/
structure EncTemps where
  stage : EncStage
  /-- `ENC.sum`, the unescaped running sum. -/
  sum : Byte
  /-- `ENC.i`, the index of the next frame byte. -/
  i : Nat
deriving DecidableEq, Repr

/-- The operation in progress: at most one, since host, decoder and encoder never run at the same
time (R11, R74). -/
inductive Call where
  /-- None: the host may issue the next operation. -/
  | idle
  /-- A `DEC.POLL` before its entry step (R171). -/
  | entry
  /-- A `DEC.POLL` in its drain loop (R172). -/
  | drain
  /-- An `ENC.SERIALIZE` (R210). -/
  | serialize (t : EncTemps)
deriving DecidableEq, Repr

/-- The schedule of the transport and of the block: who makes the next move. The transport acts at
any time (R11, D3). -/
inductive Turn where
  /-- The transport appends a received byte to `RXQ` (R75). -/
  | arrive (b : Byte)
  /-- The transport sends the head of `TXQ` (R36, R76). -/
  | send
  /-- The block moves by one row of the opcode table, so that the transport may act inside a byte
  step. -/
  | row
  /-- The block moves by one unit: a host operation, an entry step, a whole byte step, one emission
  step (R10). It also moves so where no schedule is left. -/
  | unit
deriving DecidableEq, Repr

/-- The fields of a received frame that a field decoder reads (R244 to R248); a field that the
frame type's layout does not have is absent. -/
structure FrameFields where
  frameType : Byte
  frameId : Option Byte
  addr64 : Option Address64
  addr16 : Option Half
  command : Option (Byte × Byte)
  status : Option Byte
  options : Option Byte
  retries : Option Byte
  deliveryStatus : Option Byte
  discoveryStatus : Option Byte
  payload : Option (List Byte)
deriving DecidableEq, Repr

/-- What the last host operation returned to the host (the result column of R116). -/
inductive HostResult where
  /-- No result. -/
  | none
  | byte (b : Byte)
  | half (h : Half)
  | flag (b : Bool)
  | code (c : ErrorCode)
  /-- `BUF.SET` succeeded (R142). -/
  | ok
  /-- `BUF.SET` failed; the code is only a result (R142, R286). -/
  | failed (c : ErrorCode)
  /-- A field decoder's fields (R244 to R248). -/
  | fields (f : FrameFields)
  /-- The frame in `IN` has another type: this field decoder does not apply to it (R249). -/
  | otherType (t : Byte)
deriving DecidableEq, Repr

/-- The state: all that spec/10_state.md gives the block and the transport's queues it sees, the
session's frame id (R43, R252), the parameters (never written), and the model's own data (`flight`,
`call`, `hostq`, `turns`, `result`, `draws`). -/
structure State where
  /-- The parameters of R7: no step writes them. -/
  cfg : Config
  /-- The packet `IN` (R20). -/
  inp : Packet
  /-- The packet `OUT` (R20). -/
  out : Packet
  /-- The decode cursor (R28 to R32). -/
  dec : Cursor
  /-- The byte in flight inside a byte step (R170). -/
  flight : Option Flight
  /-- The operation in progress (R11, R34). -/
  call : Call
  /-- `RXQ`, the receive queue, its head first (R35). -/
  rxq : List Byte
  /-- `TXQ`, the transmit queue, its head first (R36). -/
  txq : List Byte
  /-- `SENT`, the bytes sent, oldest first (R36). -/
  sent : List Byte
  /-- The operations the host will issue, next first (R11). -/
  hostq : List Instr
  /-- The schedule (R11). -/
  turns : List Turn
  /-- The result of the last host operation (R116). -/
  result : HostResult
  /-- `lastFrameId` of the session (R252). -/
  lastFrameId : Byte
  /-- How many free values have been drawn (R73; log 1). -/
  draws : Nat
deriving DecidableEq, Repr

/-- The machine never stops with a fault: "There is no process-fatal error in the core; all failures
are recoverable" (R297), and every error is a code recorded on a packet in a next state (R280). So
the type has no constructor. -/
inductive Fault where
deriving DecidableEq, Repr

/-- The reasons for which there is no next state. -/
inductive Refusal where
  /-- An instruction without a meaning. No arm of `exec` raises it. Safe. -/
  | notModelled (mnemonic : String)
  /-- Raised by the step: the host's queue holds a row that is not a host operation (R116). Safe. -/
  | notHostOperation
  /-- Raised by `PKT.SETN`: the list has fewer than `n` bytes, which the operand's contract excludes
  (R145, "a list `bytes` of at least `n` bytes"). Safe. -/
  | byteListTooShort
deriving DecidableEq, Repr

/-- A packet at construction (R39, R321): every cell `UNWRITTEN`, `C = C_INIT`. -/
def Packet.constructed (c : Config) : Packet :=
  { buf := [], cap := c.cInit, frameLength := 0, checksum := 0, errorCode := .noError }

/-- The state after construction with given parameters (R39, R321, R322). DESIGN CHOICE (log 6): the
transport's queues, which the block does not reset, are empty, and nothing is scheduled. -/
def State.construct (c : Config) : State :=
  { cfg := c
    inp := Packet.constructed c
    out := Packet.constructed c
    dec := { idx := 0, escaping := false, csum := 0, complete := false }
    flight := none
    call := .idle
    rxq := []
    txq := []
    sent := []
    hostq := []
    turns := []
    result := .none
    lastFrameId := c.frameIdInit
    draws := 0 }

/-- The machine right after construction, the block's only hardware reset (R39, R320), with the
default parameters of R7. -/
def State.reset : State := State.construct Config.default

end Sys2Proof.Machine
end

