-- ==== Sys2Proof/Machine/Ops.lean ====
section
/-! DEFINITION. The named operations over the frame stores, the packets, the cursor, the transport
and the host's result; recording an error and stopping a call (the block's "trap entry", R280, R291)
and leaving an error state (its "trap return", R171, R295). -/

namespace Sys2Proof.Machine

/-! ### Frame stores (R21) -/

/-- The canonical form of a frame store: indices strictly rising. An unlisted cell is `UNWRITTEN` and
holds no byte, so that no entry can equal what an unlisted cell reads as. -/
abbrev Memory.wf (m : Memory) : Prop := m.Pairwise (fun a b => a.1 < b.1)

/-- The byte at an index; none where no write has reached (R73). -/
def Memory.read : Memory → Nat → Option Byte
  | [], _ => none
  | (a, b) :: rest, i => if a = i then some b else Memory.read rest i

/-- One cell written (R21). -/
def Memory.write : Memory → Nat → Byte → Memory
  | [], i, v => [(i, v)]
  | (a, b) :: rest, i, v =>
    if i < a then (i, v) :: (a, b) :: rest
    else if i = a then (i, v) :: rest
    else (a, b) :: Memory.write rest i v

/-! ### The two packets (R20, R26) -/

/-- The packet named by an operand. -/
def State.pkt (s : State) : PacketId → Packet
  | .incoming => s.inp
  | .outgoing => s.out

/-- A packet replaced. -/
def State.setPkt (s : State) (p : PacketId) (k : Packet) : State :=
  match p with
  | .incoming => { s with inp := k }
  | .outgoing => { s with out := k }

/-- `p.M` (R26). -/
def State.maxLen (s : State) : PacketId → Nat
  | .incoming => s.cfg.mIn
  | .outgoing => s.cfg.mOut

/-! ### Errors: recording, stopping, restarting -/

/-- `record(p, Code)`: `p.errorCode <- Code` and nothing else (R280). -/
def record (p : PacketId) (c : ErrorCode) (s : State) : State :=
  s.setPkt p { s.pkt p with errorCode := c }

/-- `stop`: the current `DEC.POLL` ends at once and control goes back to the host (R14, R291). -/
def stopCall (s : State) : State := { s with call := .idle, flight := none }

/-- "Trap entry" for a decoder error: the code recorded on `IN`, the call stopped; nothing else
changes (R291). -/
def decoderError (c : ErrorCode) (s : State) : State := stopCall (record .incoming c s)

/-- `PKT.RESET(p)`: the three registers cleared, the storage kept (R151). -/
def packetReset (p : PacketId) (s : State) : State :=
  s.setPkt p { s.pkt p with frameLength := 0, checksum := 0, errorCode := .noError }

/-- "Trap return": `IN` reset, the cursor cleared and set to `idx` (R171, R196, R295). -/
def restartAt (idx : Nat) (s : State) : State :=
  let s := packetReset .incoming s
  { s with dec := { idx := idx, escaping := false, csum := 0, complete := false } }

/-! ### Cursor -/

/-- `DEC.idx <- n`. -/
def State.setIdx (s : State) (n : Nat) : State := { s with dec := { s.dec with idx := n } }

/-- `IN.frameLength <- h`. -/
def State.setInLength (s : State) (h : Half) : State :=
  { s with inp := { s.inp with frameLength := h } }

/-- The byte in flight goes on to order `o` of its byte step (R109). -/
def flyTo (b : Byte) (fromEscape : Bool) (o : ByteOrder) (s : State) : State :=
  { s with flight := some { byte := b, fromEscape := fromEscape, order := o } }

/-- The byte step is done and the drain loop goes on (R172). -/
def landed (s : State) : State := { s with flight := none }

/-! ### Free values -/

/-- A never-written cell is read: the next free byte, drawn afresh (R73, U1; log 1). -/
def drawByte (s : State) : Byte × State :=
  (Config.freeByte s.draws, { s with draws := s.draws + 1 })

/-- `n` as a frame length. A number that does not fit 16 bits leaves a free length (R155 states the
result only for `M <= 65535`; log 3). -/
def fitLength (n : Nat) (s : State) : Half × State :=
  if n < 65536 then (BitVec.ofNat 16 n, s)
  else (Config.freeLength s.draws, { s with draws := s.draws + 1 })

/-! ### FrameBuffer and Packet (R140 to R151) -/

/-- `BUF.ENSURE(p, size)` (R140). -/
def bufEnsureOp (p : PacketId) (size : Nat) (s : State) : State :=
  let k := s.pkt p
  if k.cap < size ∧ size ≤ s.maxLen p then s.setPkt p { k with cap := size } else s

/-- `BUF.GET(p, i)` (R141). -/
def bufGetOp (p : PacketId) (i : Nat) (s : State) : Byte × State :=
  let k := s.pkt p
  if i < k.cap then
    match k.buf.read i with
    | some b => (b, s)
    | none => drawByte s
  else (0x00, s)

/-- A packet with one cell written, its capacity grown where the index needs it (R142). -/
def Packet.stored (k : Packet) (maxLen i : Nat) (v : Byte) : Packet :=
  { k with
    cap := if k.cap ≤ i then grownCapacity i maxLen else k.cap
    buf := k.buf.write i v }

/-- `BUF.SET(p, i, v)`: none where it fails with `MaxFrameLengthExceeded` (R142). -/
def bufSetOp (p : PacketId) (i : Nat) (v : Byte) (s : State) : Option State :=
  if s.maxLen p ≤ i then none
  else some (s.setPkt p ((s.pkt p).stored (s.maxLen p) i v))

/-- `PKT.GET(p, i)` (R143). -/
def pktGetOp (p : PacketId) (i : Nat) (s : State) : Byte × State :=
  if i < (s.pkt p).frameLength.toNat then bufGetOp p i s
  else (0x00, record p .frameLengthExceeded s)

/-- `p.frameLength <- max(p.frameLength, i + 1)` (R144). -/
def extendLength (p : PacketId) (i : Nat) (s : State) : State :=
  let (len, s) := fitLength (max (s.pkt p).frameLength.toNat (i + 1)) s
  s.setPkt p { s.pkt p with frameLength := len }

/-- `PKT.SET(p, i, v)` (R144). -/
def pktSetOp (p : PacketId) (i : Nat) (v : Byte) (s : State) : State :=
  match bufSetOp p i v s with
  | none => record p .maxFrameLengthExceeded s
  | some s => extendLength p i s

/-- `PKT.SET` of consecutive bytes in ascending index (the loop of R145). -/
def pktSetEach (p : PacketId) : Nat → List Byte → State → State
  | _, [], s => s
  | i, v :: rest, s => pktSetEach p (i + 1) rest (pktSetOp p i v s)

/-- `PKT.SETN(p, first, bytes, n)`: all or nothing (R145, D15). -/
def pktSetnOp (p : PacketId) (first : Nat) (bytes : List Byte) (n : Nat) (s : State) : State :=
  if s.maxLen p < first + n then record p .maxFrameLengthExceeded s
  else pktSetEach p first (bytes.take n) s

/-- The sum modulo 256 of `n` cells from index `i` on, read through `BUF.GET` (R150). -/
def sumCells (p : PacketId) : Nat → Nat → Byte → State → Byte × State
  | _, 0, acc, s => (acc, s)
  | i, n + 1, acc, s =>
    let (b, s) := bufGetOp p i s
    sumCells p (i + 1) n (acc + b) s

/-- `PKT.CALC_CHECKSUM(p)` (R150, D16). -/
def calcChecksumOp (p : PacketId) (s : State) : Byte × State :=
  let (sum, s) := sumCells p 0 (s.pkt p).frameLength.toNat 0 s
  (checksumOf sum, s)

/-! ### Transport (R35, R36, R75, R76, R300) -/

/-- `write_byte(b)`: appended at the tail of `TXQ` (R76). -/
def writeByte (b : Byte) (s : State) : State := { s with txq := s.txq ++ [b] }

/-- The environment appends a received byte at the tail of `RXQ` (R75). -/
def arriveByte (b : Byte) (s : State) : State := { s with rxq := s.rxq ++ [b] }

/-- The environment sends the head of `TXQ` and appends it to `SENT` (R36). -/
def sendByte (s : State) : State :=
  match s.txq with
  | [] => s
  | b :: rest => { s with txq := rest, sent := s.sent ++ [b] }

/-! ### Host -/

/-- An operation returns its result to the host (R116). -/
def answer (r : HostResult) (s : State) : State := { s with result := r }

/-- `nextFrameId()` (R252). -/
def nextFrameIdOp (s : State) : Byte × State :=
  if s.cfg.ackEnabled then
    let id := BitVec.ofNat 8 (s.lastFrameId.toNat % 255 + 1)
    (id, { s with lastFrameId := id })
  else (0x00, s)

end Sys2Proof.Machine
end

