-- ==== Sys2Proof/Machine/Flags.lean ====
section
/-! DEFINITION. The flags and status values derived from the state (R29, R33, R40, R41), and the
numeric error codes (R113). -/

namespace Sys2Proof.Machine

/-- The number of an error code (R113). -/
def ErrorCode.number : ErrorCode → Nat
  | .noError => 0
  | .reallocationFailed => 1
  | .unexpectedPacketStart => 2
  | .packetIncomplete => 3
  | .maxFrameLengthExceeded => 4
  | .frameLengthExceeded => 5
  | .checksumFailure => 6

/-- `is_error(p)` (R40, R152). -/
def Packet.isError (k : Packet) : Bool := k.errorCode != .noError

/-- The decoder is in a terminal state (R33, D9). -/
def State.terminal (s : State) : Bool := s.dec.complete || s.inp.isError

/-- `available()`: the number of bytes in `RXQ` (R75). -/
def State.available (s : State) : Nat := s.rxq.length

/-- The logical states of the decoder (R29). -/
inductive DecoderState where
  | awaitStart
  | lenMsb
  | lenLsb
  | frameBytes
  | complete
  | error
deriving DecidableEq, Repr

/-- The decoder's logical state (R29). -/
def State.decoderState (s : State) : DecoderState :=
  if s.dec.complete then .complete
  else if s.inp.isError then .error
  else if s.dec.idx = 0 then .awaitStart
  else if s.dec.idx = 1 then .lenMsb
  else if s.dec.idx = 2 then .lenLsb
  else .frameBytes

/-- Byte-stuffing applies to `b` (R104, R212): escaped mode and a reserved value. -/
def State.stuffs (s : State) (b : Byte) : Bool := s.cfg.escapedMode && isReserved b

/-- A raw ESCAPE byte met now begins an escape: escaped mode, no escape pending, `DEC.idx > 0`
(R109 rows 1b and 1c, R176). -/
def State.escapesHere (s : State) : Bool :=
  s.cfg.escapedMode && !s.dec.escaping && decide (0 < s.dec.idx)

/-- The raw byte awaited is frame byte 0, the frame-type byte (R101, R114): wire offset 3 of a frame
that is not empty, with no escape pending. -/
def State.typeByteHere (s : State) : Bool :=
  decide (s.dec.idx = 3) && s.inp.frameLength != 0 && !s.dec.escaping

end Sys2Proof.Machine
end

