-- ==== Sys2Proof/Machine/Operands.lean ====
section
/-! DEFINITION. The operand forms: the field layouts of the frame types (R241 to R248) and the
policed reads of their fields (R250, R258). The other operands are plain: a packet, a natural index
or size (D25), a byte, a byte list (R116). -/

namespace Sys2Proof.Machine

/-- A frame type's layout: the frame-relative index of each field it has (R241 to R248). -/
structure Layout where
  frameId : Option Nat := none
  addr64 : Option Nat := none
  addr16 : Option Nat := none
  /-- The addr16 of TX Status is derived by the open parameter `TXSTATUS_ADDR16` (R245, R255). -/
  addr16Derived : Bool := false
  command : Option Nat := none
  status : Option Nat := none
  options : Option Nat := none
  retries : Option Nat := none
  deliveryStatus : Option Nat := none
  discoveryStatus : Option Nat := none
  payload : Option Nat := none
deriving DecidableEq, Repr

/-- A one-byte field of `IN`, read through `PKT.GET` (R258, D21). -/
def readField1 : Option Nat → State → Option Byte × State
  | none, s => (none, s)
  | some i, s => let (b, s) := pktGetOp .incoming i s; (some b, s)

/-- `n` consecutive bytes of `IN` from index `i` on, read through `PKT.GET` (R258, D21). -/
def readSpan : Nat → Nat → State → List Byte × State
  | _, 0, s => ([], s)
  | i, n + 1, s =>
    let (b, s) := pktGetOp .incoming i s
    let (rest, s) := readSpan (i + 1) n s
    (b :: rest, s)

/-- A two-byte command field: the first character at the lower index (R259). -/
def readCommand : Option Nat → State → Option (Byte × Byte) × State
  | none, s => (none, s)
  | some i, s =>
    let (a, s) := pktGetOp .incoming i s
    let (b, s) := pktGetOp .incoming (i + 1) s
    (some (a, b), s)

/-- A 16-bit address field (R254, R259). -/
def readAddr16 : Option Nat → State → Option Half × State
  | none, s => (none, s)
  | some i, s =>
    let (a, s) := pktGetOp .incoming i s
    let (b, s) := pktGetOp .incoming (i + 1) s
    (some (field16 s.cfg.fieldMsbFirst a b), s)

/-- A 64-bit address field (R254, R259). -/
def readAddr64 : Option Nat → State → Option Address64 × State
  | none, s => (none, s)
  | some i, s =>
    let (bytes, s) := readSpan i 8 s
    let v := field64 s.cfg.fieldMsbFirst bytes
    (some { high := v.1, low := v.2 }, s)

/-- A payload span, indices `n .. frameLength - 1`; a frame shorter than `n` has none (R250). -/
def readPayload : Option Nat → State → Option (List Byte) × State
  | none, s => (none, s)
  | some n, s =>
    let len := s.inp.frameLength.toNat
    if len < n then (none, s)
    else let (bytes, s) := readSpan n (len - n) s; (some bytes, s)

/-- The open parameter `TXSTATUS_ADDR16` on the frame in `IN`: its written cells, those below the frame
length, and that length (R255, D22; log 4). -/
def derivedAddr16 (s : State) : Half :=
  Config.txStatusAddr16 (s.inp.buf.filter (fun c => decide (c.1 < s.inp.frameLength.toNat)))
    s.inp.frameLength

/-- The fields of the frame in `IN`, whose type byte is `t`, by a layout. -/
def readFields (t : Byte) (l : Layout) (s : State) : FrameFields × State :=
  let (frameId, s) := readField1 l.frameId s
  let (addr64, s) := readAddr64 l.addr64 s
  let (addr16, s) := readAddr16 l.addr16 s
  let addr16 := if l.addr16Derived then some (derivedAddr16 s) else addr16
  let (command, s) := readCommand l.command s
  let (status, s) := readField1 l.status s
  let (options, s) := readField1 l.options s
  let (retries, s) := readField1 l.retries s
  let (deliveryStatus, s) := readField1 l.deliveryStatus s
  let (discoveryStatus, s) := readField1 l.discoveryStatus s
  let (payload, s) := readPayload l.payload s
  ({ frameType := t, frameId, addr64, addr16, command, status, options, retries, deliveryStatus,
     discoveryStatus, payload }, s)

/-- The default value of an Address64, the broadcast address of its width (R254). Its number is a free
value (N15; log 22). -/
def broadcastAddr64 : Address64 := { high := Config.broadcastHigh, low := Config.broadcastLow }

/-- The default value of an Address16, the broadcast address of its width (R254; log 22). -/
def broadcastAddr16 : Half := Config.broadcast16

/-- The 64-bit address of a prepare operation: the one given, or the default (R254). -/
def addr64Operand : Option Address64 → Address64
  | some a => a
  | none => broadcastAddr64

/-- The 16-bit address of a prepare operation: the one given, or the default (R254). -/
def addr16Operand : Option Half → Half
  | some a => a
  | none => broadcastAddr16

/-- The bytes of a prepare operation's two address fields, which stand side by side in both layouts
that have them (R242, R243, R259). -/
def addressBytes (msbFirst : Bool) (addr64 : Option Address64) (addr16 : Option Half) : List Byte :=
  let a := addr64Operand addr64
  fieldBytes64 msbFirst a.high a.low ++ fieldBytes16 msbFirst (addr16Operand addr16)

/-- Consecutive bytes as index and byte, from index `i` on. -/
def fieldAt : Nat → List Byte → List (Nat × Byte)
  | _, [] => []
  | i, b :: rest => (i, b) :: fieldAt (i + 1) rest

/-- `PKT.SET(OUT, i, v)` for each entry, in order (R251). -/
def setFields : List (Nat × Byte) → State → State
  | [], s => s
  | (i, v) :: rest, s => setFields rest (pktSetOp .outgoing i v s)

/-- A prepare operation (R251): reset `OUT`, write the payload first, then the fields, then the next
frame id at index 1. -/
def prepareFrame (payloadAt : Nat) (payload : List Byte) (fields : List (Nat × Byte)) (s : State) :
    State :=
  let s := packetReset .outgoing s
  let s := pktSetnOp .outgoing payloadAt payload payload.length s
  let s := setFields fields s
  let (id, s) := nextFrameIdOp s
  pktSetOp .outgoing 1 id s

end Sys2Proof.Machine
end

