-- ==== Sys2Proof/Machine/EncoderSteps.lean ====
section
/-! DEFINITION. Group E of the opcode table: the steps inside an `ENC.SERIALIZE` (R210 to R217). A
step has its effect where it is the running encoder's next step, and none elsewhere, since the
encoder runs only inside `ENC.SERIALIZE` (R11; log 7). -/

namespace Sys2Proof.Machine

open Host (Outcome)

/-- `ENC.PUT.RAW`: `b` written as it is, where byte-stuffing does not apply to it (R212). -/
def encPutRaw (b : Byte) (s : State) : State := if s.stuffs b then s else writeByte b s

def execEncPutRaw (b : Byte) (s : State) : Outcome State Fault Refusal := .next (encPutRaw b s)

/-- `ENC.PUT.ESC`: `7D` and `e` written, where byte-stuffing applies to the byte that `e` is the
image of (R212). -/
def encPutEsc (e : Byte) (s : State) : State :=
  if s.stuffs (escapeXor e) then writeByte e (writeByte escapeByte s) else s

def execEncPutEsc (e : Byte) (s : State) : Outcome State Fault Refusal := .next (encPutEsc e s)

/-- `ENC.PUT(b)`, the escape inserter: one of its two rows (R212). -/
def encPut (b : Byte) (s : State) : State :=
  if s.stuffs b then encPutEsc (escapeXor b) s else encPutRaw b s

/-- The encoder's working state replaced. -/
def State.setEnc (s : State) (t : EncTemps) : State := { s with call := .serialize t }

/-- `ENC.START`: the start delimiter, never escaped (R211). -/
def encStart (s : State) : State :=
  match s.call with
  | .serialize t =>
    if t.stage = .start then (writeByte startByte s).setEnc { t with stage := .lenMsb } else s
  | _ => s

def execEncStart (s : State) : Outcome State Fault Refusal := .next (encStart s)

/-- `ENC.LEN_MSB` (R213). -/
def encLenMsb (s : State) : State :=
  match s.call with
  | .serialize t =>
    if t.stage = .lenMsb then (encPut (halfMsb s.out.frameLength) s).setEnc { t with stage := .lenLsb }
    else s
  | _ => s

def execEncLenMsb (s : State) : Outcome State Fault Refusal := .next (encLenMsb s)

/-- `ENC.LEN_LSB` (R213); after it `ENC.sum` is 0 and `ENC.i` is 0 (R214). -/
def encLenLsb (s : State) : State :=
  match s.call with
  | .serialize t =>
    if t.stage = .lenLsb then
      (encPut (halfLsb s.out.frameLength) s).setEnc { stage := .data, sum := 0, i := 0 }
    else s
  | _ => s

def execEncLenLsb (s : State) : Outcome State Fault Refusal := .next (encLenLsb s)

/-- `ENC.DATA`: one pass of its loop, the frame byte at `ENC.i` read once, summed and emitted (R214;
the unit of behaviour inside `ENC.SERIALIZE` is one byte step, R10). -/
def encData (s : State) : State :=
  match s.call with
  | .serialize t =>
    if t.stage = .data ∧ t.i < s.out.frameLength.toNat then
      let r := pktGetOp .outgoing t.i s
      (encPut r.1 r.2).setEnc { t with sum := t.sum + r.1, i := t.i + 1 }
    else s
  | _ => s

def execEncData (s : State) : Outcome State Fault Refusal := .next (encData s)

/-- `ENC.CSUM`: the checksum emitted once the loop of `ENC.DATA` is done; `OUT.checksum` is not
written (R215, D14). -/
def encCsum (s : State) : State :=
  match s.call with
  | .serialize t =>
    if t.stage = .data ∧ s.out.frameLength.toNat ≤ t.i then
      (encPut (checksumOf t.sum) s).setEnc { t with stage := .flush }
    else s
  | _ => s

def execEncCsum (s : State) : Outcome State Fault Refusal := .next (encCsum s)

/-- `ENC.FLUSH`: the operation returns when `TXQ` is empty; until then the encoder is held, and with
it the host (R77, R216; log 8). -/
def encFlush (s : State) : State :=
  match s.call with
  | .serialize t => if t.stage = .flush ∧ s.txq = [] then { s with call := .idle } else s
  | _ => s

def execEncFlush (s : State) : Outcome State Fault Refusal := .next (encFlush s)

/-- The encoder's next step (R210). -/
def encoderRow (t : EncTemps) (s : State) : Instr :=
  match t.stage with
  | .start => .encStart
  | .lenMsb => .encLenMsb
  | .lenLsb => .encLenLsb
  | .data => if t.i < s.out.frameLength.toNat then .encData else .encCsum
  | .flush => .encFlush

end Sys2Proof.Machine
end

