-- ==== Sys2Proof/Machine/DecoderSteps.lean ====
section
/-! DEFINITION. Group D of the opcode table: the steps inside a `DEC.POLL` (R171 to R186). A row has
its effect where the row's condition holds and none where it does not, as the tests of R109 fall
through (log 7). Each row is a function on states (`decCsum`) and its meaning (`execDecCsum`). -/

namespace Sys2Proof.Machine

open Host (Outcome)

/-! ### Entry of a call (R171) and the drain loop (R172) -/

/-- `DEC.ENTRY.RESTART` (R171). -/
def decEntryRestart (s : State) : State :=
  if s.terminal ∧ s.inp.errorCode ≠ .unexpectedPacketStart then
    { restartAt 0 s with call := .drain }
  else s

def execDecEntryRestart (s : State) : Outcome State Fault Refusal := .next (decEntryRestart s)

/-- `DEC.ENTRY.RESUME1`: the consumed START is the new message's, so decoding resumes at 1 (R171). -/
def decEntryResume1 (s : State) : State :=
  if s.inp.errorCode = .unexpectedPacketStart then { restartAt 1 s with call := .drain } else s

def execDecEntryResume1 (s : State) : Outcome State Fault Refusal := .next (decEntryResume1 s)

/-- `DEC.ENTRY.CONTINUE`: every register keeps its value (R171). -/
def decEntryContinue (s : State) : State :=
  if s.terminal then s else { s with call := .drain }

def execDecEntryContinue (s : State) : Outcome State Fault Refusal := .next (decEntryContinue s)

/-- `DEC.FETCH`: one raw byte taken and its byte step begun, or, with nothing available, the call
returns (R172). -/
def decFetch (s : State) : State :=
  match s.rxq with
  | [] => stopCall s
  | b :: rest => flyTo b false .escape { s with rxq := rest }

def execDecFetch (s : State) : Outcome State Fault Refusal := .next (decFetch s)

/-! ### Step 1: the escape-sequence remover (R173 to R176) -/

/-- `DEC.UNESC` on the raw byte `r` (R173). -/
def decUnesc (r : Byte) (s : State) : State :=
  if s.cfg.escapedMode ∧ s.dec.escaping then
    flyTo (escapeXor r) true .sum { s with dec := { s.dec with escaping := false } }
  else s

def execDecUnesc (r : Byte) (s : State) : Outcome State Fault Refusal := .next (decUnesc r s)

/-- `DEC.ESC.INLINE`: the partner is taken and de-escaped (R174). -/
def decEscInline (s : State) : State :=
  match s.escapesHere, s.rxq with
  | true, x :: rest => flyTo (escapeXor x) true .sum { s with rxq := rest }
  | _, _ => s

def execDecEscInline (s : State) : Outcome State Fault Refusal := .next (decEscInline s)

/-- `DEC.ESC.SUSPEND`: the partner has not arrived (R175). -/
def decEscSuspend (s : State) : State :=
  if s.escapesHere ∧ s.available = 0 then
    stopCall { s with dec := { s.dec with escaping := true } }
  else s

def execDecEscSuspend (s : State) : Outcome State Fault Refusal := .next (decEscSuspend s)

/-! ### Step 2: out-of-place start detection (R177) -/

/-- The byte in flight came out of an escape (the local `fromEscape` of R170). -/
def State.fromEscape (s : State) : Bool := (s.flight.map Flight.fromEscape).getD false

/-- `DEC.ERR.START` on a raw `0x7E` (R177). -/
def decErrStart (s : State) : State :=
  if s.cfg.escapedMode ∧ ¬ s.fromEscape ∧ 0 < s.dec.idx then
    decoderError .unexpectedPacketStart s
  else s

def execDecErrStart (s : State) : Outcome State Fault Refusal := .next (decErrStart s)

/-! ### Step 3: checksum accumulation (R178) -/

/-- `DEC.CSUM` on the de-escaped byte `b` (R178). -/
def decCsum (b : Byte) (s : State) : State :=
  if 3 ≤ s.dec.idx then
    flyTo b s.fromEscape .dispatch { s with dec := { s.dec with csum := s.dec.csum + b } }
  else s

def execDecCsum (b : Byte) (s : State) : Outcome State Fault Refusal := .next (decCsum b s)

/-! ### Step 4: dispatch by cursor (R179 to R187) -/

/-- `DEC.SOF` on `0x7E` (R179). -/
def decSof (s : State) : State :=
  if s.dec.idx = 0 then landed (s.setIdx 1) else s

def execDecSof (s : State) : Outcome State Fault Refusal := .next (decSof s)

/-- `DEC.ERR.NOSTART` (R180). -/
def decErrNostart (b : Byte) (s : State) : State :=
  if s.dec.idx = 0 ∧ b ≠ startByte then decoderError .packetIncomplete s else s

def execDecErrNostart (b : Byte) (s : State) : Outcome State Fault Refusal :=
  .next (decErrNostart b s)

/-- `DEC.LEN_MSB` (R181). -/
def decLenMsb (b : Byte) (s : State) : State :=
  if s.dec.idx = 1 then landed ((s.setInLength (withMsb b s.inp.frameLength)).setIdx 2) else s

def execDecLenMsb (b : Byte) (s : State) : Outcome State Fault Refusal := .next (decLenMsb b s)

/-- `DEC.LEN_LSB` (R182). -/
def decLenLsb (b : Byte) (s : State) : State :=
  if s.dec.idx = 2 then landed ((s.setInLength (withLsb b s.inp.frameLength)).setIdx 3) else s

def execDecLenLsb (b : Byte) (s : State) : Outcome State Fault Refusal := .next (decLenLsb b s)

/-- `DEC.ERR.OVERLEN`: the wire cursor, not the frame index, is compared with `M` (R183). The byte
has been added to `csum` already. -/
def decErrOverlen (_b : Byte) (s : State) : State :=
  if 3 ≤ s.dec.idx ∧ s.cfg.mIn < s.dec.idx then decoderError .maxFrameLengthExceeded s else s

def execDecErrOverlen (b : Byte) (s : State) : Outcome State Fault Refusal :=
  .next (decErrOverlen b s)

/-- The byte at the cursor is the checksum byte, below the ceiling (R184, R185, R187). -/
def State.atChecksum (s : State) : Bool :=
  decide (3 ≤ s.dec.idx) && decide (s.dec.idx ≤ s.cfg.mIn) &&
    decide (s.dec.idx = checksumOffset s.inp.frameLength)

/-- `DEC.CK.OK` (R184). -/
def decCkOk (b : Byte) (s : State) : State :=
  if s.atChecksum ∧ s.dec.csum = 0xFF then
    stopCall { s with
      dec := { s.dec with complete := true }
      inp := { s.inp with checksum := b, errorCode := .noError } }
  else s

def execDecCkOk (b : Byte) (s : State) : Outcome State Fault Refusal := .next (decCkOk b s)

/-- `DEC.CK.FAIL`: the checksum byte is not stored (R185, D11). -/
def decCkFail (_b : Byte) (s : State) : State :=
  if s.atChecksum ∧ s.dec.csum ≠ 0xFF then decoderError .checksumFailure s else s

def execDecCkFail (b : Byte) (s : State) : Outcome State Fault Refusal := .next (decCkFail b s)

/-- `DEC.STORE` (R186): `PKT.SET(IN, idx - 3, b)`, which also extends the length where the host has
changed it in mid-message (R191). -/
def decStore (b : Byte) (s : State) : State :=
  if 3 ≤ s.dec.idx ∧ s.dec.idx ≤ s.cfg.mIn ∧ s.dec.idx ≠ checksumOffset s.inp.frameLength then
    landed ((pktSetOp .incoming (frameIndex s.dec.idx) b s).setIdx (s.dec.idx + 1))
  else s

def execDecStore (b : Byte) (s : State) : Outcome State Fault Refusal := .next (decStore b s)

/-! ### Which row comes next (R109, R171) -/

/-- The row of group 4 for the de-escaped byte `b` (R109 rows 4a to 4h, R187). -/
def dispatchRow (b : Byte) (s : State) : Instr :=
  if s.dec.idx = 0 then
    if b = startByte then .decSof else .decErrNostart b
  else if s.dec.idx = 1 then .decLenMsb b
  else if s.dec.idx = 2 then .decLenLsb b
  else if s.cfg.mIn < s.dec.idx then .decErrOverlen b
  else if s.dec.idx = checksumOffset s.inp.frameLength then
    if s.dec.csum = 0xFF then .decCkOk b else .decCkFail b
  else .decStore b

/-- Order 3, or order 4 where order 3 does not apply (R109). -/
def sumRow (b : Byte) (s : State) : Instr :=
  if 3 ≤ s.dec.idx then .decCsum b else dispatchRow b s

/-- The row that the byte in flight meets next (R109). -/
def selectRow (f : Flight) (s : State) : Instr :=
  match f.order with
  | .dispatch => dispatchRow f.byte s
  | .sum => sumRow f.byte s
  | .escape =>
    if s.cfg.escapedMode then
      if s.dec.escaping then .decUnesc f.byte
      else if f.byte = escapeByte ∧ 0 < s.dec.idx then
        if s.available = 0 then .decEscSuspend else .decEscInline
      else if f.byte = startByte ∧ 0 < s.dec.idx ∧ ¬ f.fromEscape then .decErrStart
      else sumRow f.byte s
    else sumRow f.byte s

/-- The entry row of a `DEC.POLL` (R171). -/
def entryRow (s : State) : Instr :=
  if s.terminal then
    if s.inp.errorCode = .unexpectedPacketStart then .decEntryResume1 else .decEntryRestart
  else .decEntryContinue

/-- The effect of a row of group D that a byte step can meet. The other instructions are no such row
and `selectRow` never gives one. -/
def applyRow : Instr → State → State
  | .decUnesc r, s => decUnesc r s
  | .decEscInline, s => decEscInline s
  | .decEscSuspend, s => decEscSuspend s
  | .decErrStart, s => decErrStart s
  | .decCsum b, s => decCsum b s
  | .decSof, s => decSof s
  | .decErrNostart b, s => decErrNostart b s
  | .decLenMsb b, s => decLenMsb b s
  | .decLenLsb b, s => decLenLsb b s
  | .decErrOverlen b, s => decErrOverlen b s
  | .decCkOk b, s => decCkOk b s
  | .decCkFail b, s => decCkFail b s
  | .decStore b, s => decStore b s
  | _, s => s

/-- At most `n` rows of the byte step in flight, one after another. -/
def runRows : Nat → State → State
  | 0, s => s
  | n + 1, s =>
    match s.flight with
    | none => s
    | some f => runRows n (applyRow (selectRow f s) s)

/-- One whole byte step on the raw byte `b`, already taken from `RXQ`: the rows that R109 selects, in
order. No byte meets more than three (one of group 1, order 3, one of group 4). -/
def byteStep (b : Byte) (s : State) : State := runRows 3 (flyTo b false .escape s)

end Sys2Proof.Machine
end

