-- ==== Sys2Proof/Machine/WireBytes.lean ====
section
/-! DEFINITION. Groups W and X of the opcode table: the units of the received wire stream (R104,
R105, R109, R110, R124). The meaning of a raw byte is the byte step that the decoder makes of it; the
meaning of an escape sequence is the byte step of its ESCAPE byte, with the second byte at the head
of `RXQ`. -/

namespace Sys2Proof.Machine

open Host (Outcome)

/-- The byte step of a two-byte unit `7D x`, both bytes already taken from `RXQ`: the partner is put
where `read_byte()` finds it. Where escapes are recognised the row `DEC.ESC.INLINE` takes it (R174);
elsewhere the `7D` is a byte step of its own and `x` stays the next raw byte (R108, R176). -/
def escapePair (x : Byte) (s : State) : State := byteStep escapeByte { s with rxq := x :: s.rxq }

/-- `START`, the raw byte `0x7E` (R104). -/
def execStart (s : State) : Outcome State Fault Refusal := .next (byteStep startByte s)

/-- `ESCAPE`, the raw byte `0x7D` (R104). -/
def execEscape (s : State) : Outcome State Fault Refusal := .next (byteStep escapeByte s)

/-- `XON`, the raw byte `0x11`: data to the decoder at every offset (R111, U8). -/
def execXon (s : State) : Outcome State Fault Refusal := .next (byteStep xonByte s)

/-- `XOFF`, the raw byte `0x13`: data to the decoder at every offset (R111, U8). -/
def execXoff (s : State) : Outcome State Fault Refusal := .next (byteStep xoffByte s)

/-- `DATA`, any other raw byte (R109). -/
def execData (v : Byte) (s : State) : Outcome State Fault Refusal := .next (byteStep v s)

/-- `ESC.START`, the wire bytes `7D 5E` (R105). -/
def execEscStart (s : State) : Outcome State Fault Refusal := .next (escapePair 0x5E s)

/-- `ESC.ESCAPE`, the wire bytes `7D 5D` (R105). -/
def execEscEscape (s : State) : Outcome State Fault Refusal := .next (escapePair 0x5D s)

/-- `ESC.XON`, the wire bytes `7D 31` (R105). -/
def execEscXon (s : State) : Outcome State Fault Refusal := .next (escapePair 0x31 s)

/-- `ESC.XOFF`, the wire bytes `7D 33` (R105). -/
def execEscXoff (s : State) : Outcome State Fault Refusal := .next (escapePair 0x33 s)

/-- `ESC.GENERIC`, the wire bytes `7D x` for any `x`, with no error (R110). -/
def execEscGeneric (x : Byte) (s : State) : Outcome State Fault Refusal := .next (escapePair x s)

end Sys2Proof.Machine
end

