-- ==== Sys2Proof/Machine/FrameTypes.lean ====
section
/-! DEFINITION. Group T of the opcode table: the frame-type codes (R114) and the field layer of
spec/43_frame_fields_and_session.md. In its wire form a code is the frame-type byte that the decoder
meets: a byte step like any other, whether the field layer supports the type or not (R115). The
prepare form of an outbound type builds the frame in `OUT` (R251); the read form of an inbound type
reads the fields of the frame in `IN` (R244 to R248, R258; log 9). -/

namespace Sys2Proof.Machine

open Host (Outcome)

/-- A field decoder: the type byte at index 0 chooses it (R249), and it reads its layout's fields
through `PKT.GET` (R258, D21). -/
def readFrame (code : Byte) (l : Layout) (s : State) : State :=
  let t := pktGetOp .incoming 0 s
  if t.1 = code then
    let r := readFields t.1 l t.2
    answer (.fields r.1) r.2
  else answer (.otherType t.1) t.2

/-- AT Command, `0x08` (R241). -/
def prepareAtCommand (a : AtCommandArgs) (s : State) : State :=
  answer .none (prepareFrame 4 a.payload
    ((0, 0x08) :: fieldAt 2 [a.command0, a.command1]) s)

def execFtAtCommand (f : OutboundForm AtCommandArgs) (s : State) : Outcome State Fault Refusal :=
  match f with
  | .wire => .next (byteStep 0x08 s)
  | .prepare a => .next (prepareAtCommand a s)

/-- AT Command Queued, `0x09`: named, with no layout (R256). -/
def execFtAtCommandQueued (s : State) : Outcome State Fault Refusal := .next (byteStep 0x09 s)

/-- Transmit Request, `0x10` (R243): addr64 at indices 2 to 9, addr16 at 10 and 11. -/
def prepareTransmitRequest (a : TransmitRequestArgs) (s : State) : State :=
  answer .none (prepareFrame 14 a.payload
    ((0, 0x10) :: (fieldAt 2 (addressBytes s.cfg.fieldMsbFirst a.addr64 a.addr16) ++
      [(12, a.radius), (13, a.options)])) s)

def execFtTransmitRequest (f : OutboundForm TransmitRequestArgs) (s : State) :
    Outcome State Fault Refusal :=
  match f with
  | .wire => .next (byteStep 0x10 s)
  | .prepare a => .next (prepareTransmitRequest a s)

/-- Explicit Addressing, `0x11`: unsupported by the field layer (R257). -/
def execFtExplicitAddressing (s : State) : Outcome State Fault Refusal := .next (byteStep 0x11 s)

/-- Remote AT Command, `0x17` (R242): addr64 at indices 2 to 9, addr16 at 10 and 11. -/
def prepareRemoteAtCommand (a : RemoteAtCommandArgs) (s : State) : State :=
  answer .none (prepareFrame 15 a.payload
    ((0, 0x17) :: (fieldAt 2 (addressBytes s.cfg.fieldMsbFirst a.addr64 a.addr16) ++
      (12, a.options) :: fieldAt 13 [a.command0, a.command1])) s)

def execFtRemoteAtCommand (f : OutboundForm RemoteAtCommandArgs) (s : State) :
    Outcome State Fault Refusal :=
  match f with
  | .wire => .next (byteStep 0x17 s)
  | .prepare a => .next (prepareRemoteAtCommand a s)

/-- AT Command Response, `0x88` (R246). -/
def atCommandResponseLayout : Layout :=
  { frameId := some 1, command := some 2, status := some 4, payload := some 5 }

def execFtAtCommandResponse (f : InboundForm) (s : State) : Outcome State Fault Refusal :=
  match f with
  | .wire => .next (byteStep 0x88 s)
  | .read => .next (readFrame 0x88 atCommandResponseLayout s)

/-- Modem Status, `0x8A` (R248). -/
def modemStatusLayout : Layout := { status := some 1 }

def execFtModemStatus (f : InboundForm) (s : State) : Outcome State Fault Refusal :=
  match f with
  | .wire => .next (byteStep 0x8A s)
  | .read => .next (readFrame 0x8A modemStatusLayout s)

/-- TX Status, `0x8B` (R245); its addr16 is the open parameter `TXSTATUS_ADDR16` (R255). -/
def txStatusLayout : Layout :=
  { frameId := some 1, addr16Derived := true, retries := some 4, deliveryStatus := some 5,
    discoveryStatus := some 6 }

def execFtTxStatus (f : InboundForm) (s : State) : Outcome State Fault Refusal :=
  match f with
  | .wire => .next (byteStep 0x8B s)
  | .read => .next (readFrame 0x8B txStatusLayout s)

/-- RX Received, `0x90` (R244). -/
def rxReceivedLayout : Layout :=
  { addr64 := some 1, addr16 := some 9, options := some 11, payload := some 12 }

def execFtRxReceived (f : InboundForm) (s : State) : Outcome State Fault Refusal :=
  match f with
  | .wire => .next (byteStep 0x90 s)
  | .read => .next (readFrame 0x90 rxReceivedLayout s)

/-- Explicit RX, `0x91`: unsupported by the field layer (R257). -/
def execFtExplicitRx (s : State) : Outcome State Fault Refusal := .next (byteStep 0x91 s)

/-- IO RX, `0x92`: unsupported by the field layer (R257). -/
def execFtIoRx (s : State) : Outcome State Fault Refusal := .next (byteStep 0x92 s)

/-- Node ID, `0x95`: unsupported by the field layer (R257). -/
def execFtNodeId (s : State) : Outcome State Fault Refusal := .next (byteStep 0x95 s)

/-- Remote AT Command Response, `0x97` (R247). -/
def remoteAtCommandResponseLayout : Layout :=
  { frameId := some 1, addr64 := some 2, addr16 := some 10, command := some 12, status := some 14,
    payload := some 15 }

def execFtRemoteAtCommandResponse (f : InboundForm) (s : State) : Outcome State Fault Refusal :=
  match f with
  | .wire => .next (byteStep 0x97 s)
  | .read => .next (readFrame 0x97 remoteAtCommandResponseLayout s)

end Sys2Proof.Machine
end

