-- ==== Sys2Proof/Machine/HostOps.lean ====
section
/-! DEFINITION. Group H of the opcode table: the host operations (R116). The FrameBuffer and Packet
operations run whole in one step; `DEC.POLL` and `ENC.SERIALIZE` begin a call whose steps are the
rows of groups D and E (R10, R345). -/

namespace Sys2Proof.Machine

open Host (Outcome)

/-! ### FrameBuffer (R140 to R142) -/

/-- `BUF.ENSURE(p, size)` (R140). -/
def execBufEnsure (p : PacketId) (size : Nat) (s : State) : Outcome State Fault Refusal :=
  .next (answer .none (bufEnsureOp p size s))

/-- `BUF.GET(p, i)` (R141). -/
def execBufGet (p : PacketId) (i : Nat) (s : State) : Outcome State Fault Refusal :=
  let r := bufGetOp p i s
  .next (answer (.byte r.1) r.2)

/-- `BUF.SET(p, i, v)`: a failure is only a result to the caller (R142, R286). -/
def execBufSet (p : PacketId) (i : Nat) (v : Byte) (s : State) : Outcome State Fault Refusal :=
  match bufSetOp p i v s with
  | some t => .next (answer .ok t)
  | none => .next (answer (.failed .maxFrameLengthExceeded) s)

/-! ### Packet core (R143 to R154) -/

/-- `PKT.GET(p, i)` (R143). -/
def execPktGet (p : PacketId) (i : Nat) (s : State) : Outcome State Fault Refusal :=
  let r := pktGetOp p i s
  .next (answer (.byte r.1) r.2)

/-- `PKT.SET(p, i, v)` (R144). -/
def execPktSet (p : PacketId) (i : Nat) (v : Byte) (s : State) : Outcome State Fault Refusal :=
  .next (answer .none (pktSetOp p i v s))

/-- `PKT.SETN(p, first, bytes, n)`: the first `n` bytes of the list, all or nothing (R145). A range
inside the ceiling with a list of fewer than `n` bytes is outside the operand's contract. -/
def execPktSetn (p : PacketId) (first : Nat) (bytes : List Byte) (n : Nat) (s : State) :
    Outcome State Fault Refusal :=
  if s.maxLen p < first + n ∨ n ≤ bytes.length then
    .next (answer .none (pktSetnOp p first bytes n s))
  else .refused .byteListTooShort

/-- `PKT.LEN_MSB(p)` (R146). -/
def execPktLenMsb (p : PacketId) (s : State) : Outcome State Fault Refusal :=
  .next (answer (.byte (halfMsb (s.pkt p).frameLength)) s)

/-- `PKT.LEN_LSB(p)` (R147). -/
def execPktLenLsb (p : PacketId) (s : State) : Outcome State Fault Refusal :=
  .next (answer (.byte (halfLsb (s.pkt p).frameLength)) s)

/-- `PKT.SET_LEN_MSB(p, v)`: not compared with `M` and not clipped (R148). -/
def execPktSetLenMsb (p : PacketId) (v : Byte) (s : State) : Outcome State Fault Refusal :=
  let k := s.pkt p
  .next (answer .none (s.setPkt p { k with frameLength := withMsb v k.frameLength }))

/-- `PKT.SET_LEN_LSB(p, v)` (R149). -/
def execPktSetLenLsb (p : PacketId) (v : Byte) (s : State) : Outcome State Fault Refusal :=
  let k := s.pkt p
  .next (answer .none (s.setPkt p { k with frameLength := withLsb v k.frameLength }))

/-- `PKT.CALC_CHECKSUM(p)`: the stored checksum is not changed (R150). -/
def execPktCalcChecksum (p : PacketId) (s : State) : Outcome State Fault Refusal :=
  let r := calcChecksumOp p s
  .next (answer (.byte r.1) r.2)

/-- `PKT.RESET(p)`: the cursor is not touched (R151, R331). -/
def execPktReset (p : PacketId) (s : State) : Outcome State Fault Refusal :=
  .next (answer .none (packetReset p s))

/-- `PKT.IS_ERROR(p)` (R152). -/
def execPktIsError (p : PacketId) (s : State) : Outcome State Fault Refusal :=
  .next (answer (.flag (s.pkt p).isError) s)

/-- `PKT.ERROR_CODE(p)` (R153). -/
def execPktErrorCode (p : PacketId) (s : State) : Outcome State Fault Refusal :=
  .next (answer (.code (s.pkt p).errorCode) s)

/-- `PKT.FRAME_LENGTH(p)` (R154). -/
def execPktFrameLength (p : PacketId) (s : State) : Outcome State Fault Refusal :=
  .next (answer (.half (s.pkt p).frameLength) s)

/-- `PKT.CHECKSUM(p)` (R154). -/
def execPktChecksum (p : PacketId) (s : State) : Outcome State Fault Refusal :=
  .next (answer (.byte (s.pkt p).checksum) s)

/-! ### Decoder and encoder calls -/

/-- `DEC.POLL`: the call begins with its entry step (R170, R171). It returns no value. -/
def execDecPoll (s : State) : Outcome State Fault Refusal :=
  .next (answer .none { s with call := .entry, flight := none })

/-- `DEC.IS_COMPLETE` (R40). -/
def execDecIsComplete (s : State) : Outcome State Fault Refusal :=
  .next (answer (.flag s.dec.complete) s)

/-- `DEC.RESET`: packet and cursor together, always to `idx = 0` (R196, D12). -/
def execDecReset (s : State) : Outcome State Fault Refusal :=
  .next (answer .none (restartAt 0 s))

/-- `ENC.SERIALIZE`: the call begins with `ENC.START`; its working state is created (R34, R210). -/
def execEncSerialize (s : State) : Outcome State Fault Refusal :=
  .next (answer .none { s with call := .serialize { stage := .start, sum := 0, i := 0 } })

end Sys2Proof.Machine
end

