-- ==== Sys2Proof/Machine/Dispatch.lean ====
section
/-! DEFINITION. The dispatch of the instructions to their meanings, one arm per constructor. -/

namespace Sys2Proof.Machine

open Host (Outcome)

def exec (i : Instr) (s : State) : Host.Outcome State Fault Refusal :=
  match i with
  -- group W: raw byte classes
  | .start => Sys2Proof.Machine.execStart s
  | .escape => Sys2Proof.Machine.execEscape s
  | .xon => Sys2Proof.Machine.execXon s
  | .xoff => Sys2Proof.Machine.execXoff s
  | .data v => Sys2Proof.Machine.execData v s
  -- group X: escape sequences
  | .escStart => Sys2Proof.Machine.execEscStart s
  | .escEscape => Sys2Proof.Machine.execEscEscape s
  | .escXon => Sys2Proof.Machine.execEscXon s
  | .escXoff => Sys2Proof.Machine.execEscXoff s
  | .escGeneric x => Sys2Proof.Machine.execEscGeneric x s
  -- group D: decoder steps
  | .decEntryRestart => Sys2Proof.Machine.execDecEntryRestart s
  | .decEntryResume1 => Sys2Proof.Machine.execDecEntryResume1 s
  | .decEntryContinue => Sys2Proof.Machine.execDecEntryContinue s
  | .decFetch => Sys2Proof.Machine.execDecFetch s
  | .decUnesc r => Sys2Proof.Machine.execDecUnesc r s
  | .decEscInline => Sys2Proof.Machine.execDecEscInline s
  | .decEscSuspend => Sys2Proof.Machine.execDecEscSuspend s
  | .decErrStart => Sys2Proof.Machine.execDecErrStart s
  | .decCsum b => Sys2Proof.Machine.execDecCsum b s
  | .decSof => Sys2Proof.Machine.execDecSof s
  | .decErrNostart b => Sys2Proof.Machine.execDecErrNostart b s
  | .decLenMsb b => Sys2Proof.Machine.execDecLenMsb b s
  | .decLenLsb b => Sys2Proof.Machine.execDecLenLsb b s
  | .decErrOverlen b => Sys2Proof.Machine.execDecErrOverlen b s
  | .decCkOk b => Sys2Proof.Machine.execDecCkOk b s
  | .decCkFail b => Sys2Proof.Machine.execDecCkFail b s
  | .decStore b => Sys2Proof.Machine.execDecStore b s
  -- group E: encoder steps
  | .encStart => Sys2Proof.Machine.execEncStart s
  | .encPutRaw b => Sys2Proof.Machine.execEncPutRaw b s
  | .encPutEsc e => Sys2Proof.Machine.execEncPutEsc e s
  | .encLenMsb => Sys2Proof.Machine.execEncLenMsb s
  | .encLenLsb => Sys2Proof.Machine.execEncLenLsb s
  | .encData => Sys2Proof.Machine.execEncData s
  | .encCsum => Sys2Proof.Machine.execEncCsum s
  | .encFlush => Sys2Proof.Machine.execEncFlush s
  -- group H: host operations
  | .bufEnsure p size => Sys2Proof.Machine.execBufEnsure p size s
  | .bufGet p index => Sys2Proof.Machine.execBufGet p index s
  | .bufSet p index v => Sys2Proof.Machine.execBufSet p index v s
  | .pktGet p index => Sys2Proof.Machine.execPktGet p index s
  | .pktSet p index v => Sys2Proof.Machine.execPktSet p index v s
  | .pktSetn p first bytes n => Sys2Proof.Machine.execPktSetn p first bytes n s
  | .pktLenMsb p => Sys2Proof.Machine.execPktLenMsb p s
  | .pktLenLsb p => Sys2Proof.Machine.execPktLenLsb p s
  | .pktSetLenMsb p v => Sys2Proof.Machine.execPktSetLenMsb p v s
  | .pktSetLenLsb p v => Sys2Proof.Machine.execPktSetLenLsb p v s
  | .pktCalcChecksum p => Sys2Proof.Machine.execPktCalcChecksum p s
  | .pktReset p => Sys2Proof.Machine.execPktReset p s
  | .pktIsError p => Sys2Proof.Machine.execPktIsError p s
  | .pktErrorCode p => Sys2Proof.Machine.execPktErrorCode p s
  | .pktFrameLength p => Sys2Proof.Machine.execPktFrameLength p s
  | .pktChecksum p => Sys2Proof.Machine.execPktChecksum p s
  | .decPoll => Sys2Proof.Machine.execDecPoll s
  | .decIsComplete => Sys2Proof.Machine.execDecIsComplete s
  | .decReset => Sys2Proof.Machine.execDecReset s
  | .encSerialize => Sys2Proof.Machine.execEncSerialize s
  -- group T: frame-type codes
  | .ftAtCommand f => Sys2Proof.Machine.execFtAtCommand f s
  | .ftAtCommandQueued => Sys2Proof.Machine.execFtAtCommandQueued s
  | .ftTransmitRequest f => Sys2Proof.Machine.execFtTransmitRequest f s
  | .ftExplicitAddressing => Sys2Proof.Machine.execFtExplicitAddressing s
  | .ftRemoteAtCommand f => Sys2Proof.Machine.execFtRemoteAtCommand f s
  | .ftAtCommandResponse f => Sys2Proof.Machine.execFtAtCommandResponse f s
  | .ftModemStatus f => Sys2Proof.Machine.execFtModemStatus f s
  | .ftTxStatus f => Sys2Proof.Machine.execFtTxStatus f s
  | .ftRxReceived f => Sys2Proof.Machine.execFtRxReceived f s
  | .ftExplicitRx => Sys2Proof.Machine.execFtExplicitRx s
  | .ftIoRx => Sys2Proof.Machine.execFtIoRx s
  | .ftNodeId => Sys2Proof.Machine.execFtNodeId s
  | .ftRemoteAtCommandResponse f => Sys2Proof.Machine.execFtRemoteAtCommandResponse f s

end Sys2Proof.Machine
end

