-- ==== Sys2Proof/WellFormed.lean ====
section
/-! DEFINITION. Which terms of `Instr` are well-formed instructions, and which of them a host may
issue. -/

namespace Sys2Proof

open Machine

/-- The operand ranges of the opcode table: a `DATA` byte is none of the four reserved values
(R104, R109), a generic escape is none of the four canonical ones (R105, R110), the byte that
`DEC.ERR.NOSTART` rejects is not `START` (R180), the second byte of `ENC.PUT.ESC` is the image of a
reserved byte (R212), and `PKT.SETN` has at least `n` bytes (R145). Every other operand is free. -/
def Instr.wellFormed : Instr → Bool
  | .data v => !isReserved v
  | .escGeneric x => !isEscapeImage x
  | .decErrNostart b => b != startByte
  | .encPutEsc e => isEscapeImage e
  | .pktSetn _ _ bytes n => decide (n ≤ bytes.length)
  | _ => true

/-- The operations a host issues: the twenty of R116, and the prepare and read operations of the
field layer (R251, R258). The transport's primitives, the wire bytes and the steps of groups D and E
are not host operations (R116). -/
def Instr.isHostOp : Instr → Bool
  | .bufEnsure .. | .bufGet .. | .bufSet .. | .pktGet .. | .pktSet .. | .pktSetn ..
  | .pktLenMsb _ | .pktLenLsb _ | .pktSetLenMsb .. | .pktSetLenLsb .. | .pktCalcChecksum _
  | .pktReset _ | .pktIsError _ | .pktErrorCode _ | .pktFrameLength _ | .pktChecksum _
  | .decPoll | .decIsComplete | .decReset | .encSerialize => true
  | .ftAtCommand (.prepare _) | .ftTransmitRequest (.prepare _) | .ftRemoteAtCommand (.prepare _) => true
  | .ftAtCommandResponse .read | .ftModemStatus .read | .ftTxStatus .read | .ftRxReceived .read
  | .ftRemoteAtCommandResponse .read => true
  | _ => false

end Sys2Proof
end

