-- ==== Sys2Proof/Decode.lean ====
section
/-! DEFINITION. The decoder of the received wire stream (R109, R114, R124 in spec/30_encoding.md),
and after it the encoder. The host operations have no binary encoding and are given none (R116, D2);
the steps of groups D and E are selected by the machine's state (`Machine.selectRow`,
`Machine.encoderRow` in Machine/Fetch.lean). -/

namespace Sys2Proof

open Machine

/-- What the decoder of the wire stream must know of the state to tell one unit of the stream from
the next (R124). -/
structure WireContext where
  /-- An ESCAPE byte is recognised here: escaped mode, no escape pending, `DEC.idx > 0`
  (R109 rows 1b, 1c). -/
  escapes : Bool
  /-- The byte awaited is frame byte 0, the frame-type byte (wire offset 3, R101, R114). -/
  typeByte : Bool
deriving DecidableEq, Repr

/-- Why the decoder of the wire stream gives no instruction. -/
inductive DecodeReject where
  /-- The receive queue holds no byte: there is nothing to decode (R172). -/
  | noByte
deriving DecidableEq, Repr

/-- The frame-type row of a code (R114). -/
def frameTypeRow (b : Byte) : Option Instr :=
  if b = 0x08 then some (.ftAtCommand .wire)
  else if b = 0x09 then some .ftAtCommandQueued
  else if b = 0x10 then some (.ftTransmitRequest .wire)
  else if b = 0x11 then some .ftExplicitAddressing
  else if b = 0x17 then some (.ftRemoteAtCommand .wire)
  else if b = 0x88 then some (.ftAtCommandResponse .wire)
  else if b = 0x8A then some (.ftModemStatus .wire)
  else if b = 0x8B then some (.ftTxStatus .wire)
  else if b = 0x90 then some (.ftRxReceived .wire)
  else if b = 0x91 then some .ftExplicitRx
  else if b = 0x92 then some .ftIoRx
  else if b = 0x95 then some .ftNodeId
  else if b = 0x97 then some (.ftRemoteAtCommandResponse .wire)
  else none

/-- The row of an escape sequence by its second wire byte (R105, R110). -/
def escapeRow (x : Byte) : Instr :=
  if x = 0x5E then .escStart
  else if x = 0x5D then .escEscape
  else if x = 0x31 then .escXon
  else if x = 0x33 then .escXoff
  else .escGeneric x

/-- The row of a raw byte by its class alone (R104, R119). -/
def byteClassRow (b : Byte) : Instr :=
  if b = startByte then .start
  else if b = escapeByte then .escape
  else if b = xonByte then .xon
  else if b = xoffByte then .xoff
  else .data b

/-- The row of a raw byte that is a unit by itself: at the position of the frame-type byte a code of
R114 is that code's row; every other byte is its byte class. -/
def singleByteRow (c : WireContext) (b : Byte) : Instr :=
  match c.typeByte, frameTypeRow b with
  | true, some i => i
  | _, _ => byteClassRow b

/-- One unit of the wire stream and the bytes after it: a raw `0x7D` where escapes are recognised
makes a two-byte unit with the byte that follows it, whatever that byte is; every other raw byte is a
unit by itself (R124). -/
def decode (c : WireContext) : List Byte → Except DecodeReject (Instr × List Byte)
  | [] => .error .noByte
  | b :: rest =>
    if c.escapes && b == escapeByte then
      match rest with
      | [] => .ok (.escape, [])
      | x :: rest' => .ok (escapeRow x, rest')
    else .ok (singleByteRow c b, rest)

/-- Where the byte classes and the escape sequences of groups W and X are told apart: escapes are
recognised, and the byte is not the frame-type byte. -/
def WireContext.inFrame : WireContext := { escapes := true, typeByte := false }

/-- The position of the frame-type byte. -/
def WireContext.atType : WireContext := { escapes := true, typeByte := true }

/-- The wire bytes of a table word. An 8-bit row is one raw byte; a 16-bit row is one 16-bit word,
whose most significant byte is the first wire byte (the table's group X, R119). -/
def tableBytes (nbits w : Nat) : Option (List Byte) :=
  if nbits = 8 ∧ w < 256 then some [BitVec.ofNat 8 w]
  else if nbits = 16 ∧ w < 65536 then some [BitVec.ofNat 8 (w / 256), BitVec.ofNat 8 (w % 256)]
  else none

/-- The instruction that the decoder reads from a table word: a 16-bit word is an escape sequence, an
8-bit word is a byte class, or else a frame-type code, or else `DATA` (the order of the table's
groups W, X, T and of its `priority`; log 5). -/
def decodeTableWord (nbits w : Nat) : Option Instr :=
  match tableBytes nbits w with
  | none => none
  | some bytes =>
    match decode .inFrame bytes with
    | .ok (.data v, []) => some (singleByteRow .atType v)
    | .ok (i, []) => some i
    | _ => none

/-- The wire bytes of an instruction that has an encoding, from the `encoding` column of the opcode
table: the units of groups W, X and T, the byte a step of group D takes, the bytes a step of group E
emits. The rows whose encoding the table leaves null have none. -/
def encode : Instr → Option (List Byte)
  | .start => some [startByte]
  | .escape => some [escapeByte]
  | .xon => some [xonByte]
  | .xoff => some [xoffByte]
  | .data v => some [v]
  | .escStart => some [escapeByte, 0x5E]
  | .escEscape => some [escapeByte, 0x5D]
  | .escXon => some [escapeByte, 0x31]
  | .escXoff => some [escapeByte, 0x33]
  | .escGeneric x => some [escapeByte, x]
  | .decEntryRestart | .decEntryResume1 | .decEntryContinue | .decFetch => none
  | .decUnesc r => some [r]
  | .decEscInline => some [escapeByte]
  | .decEscSuspend => some [escapeByte]
  | .decErrStart => some [startByte]
  | .decCsum b => some [b]
  | .decSof => some [startByte]
  | .decErrNostart b => some [b]
  | .decLenMsb b => some [b]
  | .decLenLsb b => some [b]
  | .decErrOverlen b => some [b]
  | .decCkOk b => some [b]
  | .decCkFail b => some [b]
  | .decStore b => some [b]
  | .encStart => some [startByte]
  | .encPutRaw b => some [b]
  | .encPutEsc e => some [escapeByte, e]
  | .encLenMsb | .encLenLsb | .encData | .encCsum | .encFlush => none
  | .bufEnsure .. | .bufGet .. | .bufSet .. | .pktGet .. | .pktSet .. | .pktSetn .. => none
  | .pktLenMsb _ | .pktLenLsb _ | .pktSetLenMsb .. | .pktSetLenLsb .. | .pktCalcChecksum _ => none
  | .pktReset _ | .pktIsError _ | .pktErrorCode _ | .pktFrameLength _ | .pktChecksum _ => none
  | .decPoll | .decIsComplete | .decReset | .encSerialize => none
  | .ftAtCommand .wire => some [0x08]
  | .ftAtCommandQueued => some [0x09]
  | .ftTransmitRequest .wire => some [0x10]
  | .ftExplicitAddressing => some [0x11]
  | .ftRemoteAtCommand .wire => some [0x17]
  | .ftAtCommandResponse .wire => some [0x88]
  | .ftModemStatus .wire => some [0x8A]
  | .ftTxStatus .wire => some [0x8B]
  | .ftRxReceived .wire => some [0x90]
  | .ftExplicitRx => some [0x91]
  | .ftIoRx => some [0x92]
  | .ftNodeId => some [0x95]
  | .ftRemoteAtCommandResponse .wire => some [0x97]
  | .ftAtCommand (.prepare _) | .ftTransmitRequest (.prepare _) | .ftRemoteAtCommand (.prepare _) => none
  | .ftAtCommandResponse .read | .ftModemStatus .read | .ftTxStatus .read | .ftRxReceived .read => none
  | .ftRemoteAtCommandResponse .read => none

/-- The position in the stream at which the wire units of an instruction are decoded: the frame-type
rows at wire offset 3 (R114), the others anywhere else in the frame. -/
def wireContextOf : Instr → WireContext
  | .ftAtCommand _ | .ftAtCommandQueued | .ftTransmitRequest _ | .ftExplicitAddressing
  | .ftRemoteAtCommand _ | .ftAtCommandResponse _ | .ftModemStatus _ | .ftTxStatus _
  | .ftRxReceived _ | .ftExplicitRx | .ftIoRx | .ftNodeId | .ftRemoteAtCommandResponse _ => .atType
  | _ => .inFrame

/-- The units of the received wire stream: groups W and X, and group T in its wire form. -/
def Instr.isWireUnit : Instr → Bool
  | .start | .escape | .xon | .xoff | .data _
  | .escStart | .escEscape | .escXon | .escXoff | .escGeneric _ => true
  | .ftAtCommand .wire | .ftAtCommandQueued | .ftTransmitRequest .wire | .ftExplicitAddressing
  | .ftRemoteAtCommand .wire | .ftAtCommandResponse .wire | .ftModemStatus .wire | .ftTxStatus .wire
  | .ftRxReceived .wire | .ftExplicitRx | .ftIoRx | .ftNodeId | .ftRemoteAtCommandResponse .wire => true
  | _ => false

end Sys2Proof
end

