-- ==== Sys2Proof/Machine/Fetch.lean ====
section
/-! DEFINITION. Which instruction the block runs next, and in which state: the next host operation,
the entry step, the next unit of the wire stream (fetched from `RXQ` and decoded), the next row of a
byte step in flight, the encoder's next step. -/

namespace Sys2Proof.Machine

/-- What the block does with its move. -/
inductive Fetched where
  /-- Nothing: no operation is in progress and the host issues none. -/
  | nothing
  /-- It runs an instruction in a state (the one it was in, less what the fetch took). -/
  | run (i : Instr) (s : State)
  /-- It refuses. -/
  | refuse (r : Refusal)
deriving DecidableEq, Repr

/-- Where in the stream the next raw byte stands (R124). -/
def State.wireContext (s : State) : WireContext :=
  { escapes := s.escapesHere, typeByte := s.typeByteHere }

/-- The next host operation (R116): taken from the host's queue. -/
def fetchHostOp (s : State) : Fetched :=
  match s.hostq with
  | [] => .nothing
  | i :: rest => if i.isHostOp then .run i { s with hostq := rest } else .refuse .notHostOperation

/-- The next unit of the wire stream, its bytes taken from `RXQ` (R124, R172); with nothing available
the drain loop ends by `DEC.FETCH`. -/
def fetchUnit (s : State) : Fetched :=
  match decode s.wireContext s.rxq with
  | .ok (i, rest) => .run i { s with rxq := rest }
  | .error .noByte => .run .decFetch s

/-- The block's next instruction. With `fine` a byte step is begun by `DEC.FETCH` and runs row by row;
without it a whole unit of the wire stream is one instruction. -/
def nextInstr (fine : Bool) (s : State) : Fetched :=
  match s.call with
  | .idle => fetchHostOp s
  | .entry => .run (entryRow s) s
  | .drain =>
    match s.flight with
    | some f => .run (selectRow f s) s
    | none => if fine then .run .decFetch s else fetchUnit s
  | .serialize t => .run (encoderRow t s) s

/-- The state in which the wire bytes `bytes` are the next unit that `nextInstr` fetches as the
instruction `i`: a `DEC.POLL` is in its drain loop and the bytes are all that `RXQ` holds. An escape
sequence needs an offset above 0 in escaped mode, a frame-type code the wire offset 3 of a frame that
is not empty, and a byte class any other offset (log 10). -/
def State.fetching (s : State) (i : Option Instr) (bytes : List Byte) : State :=
  let s := { s with
    turns := [], call := .drain, flight := none, rxq := bytes
    dec := { s.dec with escaping := false } }
  match i with
  | none => s
  | some i =>
    if (wireContextOf i).typeByte then
      (s.setInLength (if s.inp.frameLength = 0 then 1 else s.inp.frameLength)).setIdx 3
    else
      match bytes with
      | [_, _] =>
        { s.setIdx (if s.dec.idx = 0 then 1 else s.dec.idx) with
          cfg := { s.cfg with escapedMode := true } }
      | _ => if s.dec.idx = 3 then s.setIdx 0 else s

end Sys2Proof.Machine
end

