-- ==== Sys2Proof/Machine/Step.lean ====
section
/-! DEFINITION. The step: one move of the agent whose turn it is (R11): the transport, or the block,
which runs its next instruction. -/

namespace Sys2Proof.Machine

open Host (Outcome)

/-- The block makes its move. -/
def runFetched (s : State) : Fetched → Outcome State Fault Refusal
  | .nothing => .next s
  | .run i t => exec i t
  | .refuse r => .refused r

/-- One move of the block. -/
def blockStep (fine : Bool) (s : State) : Outcome State Fault Refusal :=
  runFetched s (nextInstr fine s)

/-- One step of the machine: the next turn of the schedule, or the block's move where none is left. -/
def step (s : State) : Outcome State Fault Refusal :=
  match s.turns with
  | [] => blockStep false s
  | .arrive b :: rest => .next (arriveByte b { s with turns := rest })
  | .send :: rest => .next (sendByte { s with turns := rest })
  | .row :: rest => blockStep true { s with turns := rest }
  | .unit :: rest => blockStep false { s with turns := rest }

/-- The state with a table word stored where the step fetches its next instruction (log 10). -/
def State.withFetchWord (s : State) (nbits w : Nat) : State :=
  s.fetching (decodeTableWord nbits w) ((tableBytes nbits w).getD [])

end Sys2Proof.Machine
end

