-- ==== Sys2Proof/Machine/Reference.lean ====
section
/-! DEFINITION. The two reference algorithms of the spec, each in one piece: R170 (`DEC.POLL`) and R210
(`ENC.SERIALIZE`, as the bytes of one message, R100, R101), with the transport at rest while the call
runs. `step` does not use them: they are what the step-by-step machine is compared with (R170, "is the
reference"; R220). -/

namespace Sys2Proof.Machine

/-- The body of the drain loop of R170 for a raw byte `b` already read, in the order of its
pseudocode; a `stop` leaves the call idle. -/
def referenceByte (b : Byte) (s : State) : State :=
  -- steps 3 and 4, on the byte that leaves steps 1 and 2
  let rest (b : Byte) (s : State) : State :=
    let s := if 3 ≤ s.dec.idx then { s with dec := { s.dec with csum := s.dec.csum + b } } else s
    if s.dec.idx = 0 then
      if b = 0x7E then s.setIdx 1 else decoderError .packetIncomplete s
    else if s.dec.idx = 1 then (s.setInLength (withMsb b s.inp.frameLength)).setIdx 2
    else if s.dec.idx = 2 then (s.setInLength (withLsb b s.inp.frameLength)).setIdx 3
    else if s.cfg.mIn < s.dec.idx then decoderError .maxFrameLengthExceeded s
    else if s.dec.idx = s.inp.frameLength.toNat + 3 then
      if s.dec.csum = 0xFF then
        stopCall { s with
          dec := { s.dec with complete := true }
          inp := { s.inp with checksum := b, errorCode := .noError } }
      else decoderError .checksumFailure s
    else (pktSetOp .incoming (s.dec.idx - 3) b s).setIdx (s.dec.idx + 1)
  if s.cfg.escapedMode then
    if s.dec.escaping then rest (b ^^^ 0x20) { s with dec := { s.dec with escaping := false } }
    else if b = 0x7D ∧ 0 < s.dec.idx then
      match s.rxq with
      | [] => stopCall { s with dec := { s.dec with escaping := true } }
      | x :: q => rest (x ^^^ 0x20) { s with rxq := q }
    else if b = 0x7E ∧ 0 < s.dec.idx then decoderError .unexpectedPacketStart s
    else rest b s
  else rest b s

/-- The drain loop of R170, at most `n` passes of it. -/
def referenceDrain : Nat → State → State
  | 0, s => s
  | n + 1, s =>
    match s.rxq with
    | [] => stopCall s
    | b :: q =>
      let t := referenceByte b { s with rxq := q }
      if t.call = .idle then t else referenceDrain n t

/-- The entry step of R170. -/
def referenceEntry (s : State) : State :=
  if s.dec.complete ∨ s.inp.errorCode ≠ .noError then
    restartAt (if s.inp.errorCode = .unexpectedPacketStart then 1 else 0) s
  else s

/-- One `DEC.POLL` with no byte arriving while it runs (R170): every pass takes at least one byte of
`RXQ`, and one more pass finds it empty. -/
def referencePoll (s : State) : State :=
  referenceDrain (s.rxq.length + 1) { referenceEntry s with call := .drain, flight := none }

/-- The bytes that `put(b)` of R210 writes. -/
def putBytes (escaped : Bool) (b : Byte) : List Byte :=
  if escaped && isReserved b then [0x7D, b ^^^ 0x20] else [b]

/-- The sum modulo 256 of a frame's bytes (R103). -/
def frameSum (frame : List Byte) : Byte := frame.foldl (· + ·) 0

/-- The wire bytes of a message with frame `frame` and any checksum byte `check` (R100, R101): byte-stuffed
after its START. -/
def messageWith (escaped : Bool) (frame : List Byte) (check : Byte) : List Byte :=
  let len := BitVec.ofNat 16 frame.length
  0x7E :: (putBytes escaped (halfMsb len) ++ putBytes escaped (halfLsb len) ++
    frame.flatMap (putBytes escaped) ++ putBytes escaped check)

/-- The wire bytes of the message whose frame is `frame` (R100, R103, R210). -/
def messageBytes (escaped : Bool) (frame : List Byte) : List Byte :=
  messageWith escaped frame (checksumOf (frameSum frame))

/-- What a read through `BUF.GET` of one cell gives without a draw: the written byte, 0 at or above the
capacity, none for a never-written cell below it (R141, R73). -/
def Packet.peek (k : Packet) (i : Nat) : Option Byte :=
  if i < k.cap then k.buf.read i else some 0x00

/-- The frame of a packet, cells `0 .. frameLength - 1`, where none of them is `UNWRITTEN`. -/
def Packet.frame (k : Packet) : Option (List Byte) :=
  (List.range k.frameLength.toNat).mapM k.peek

/-- `encode(f)` of R118: the host operations that send the frame `f`. -/
def encodeOperations (f : List Byte) : List Instr :=
  [.pktReset .outgoing, .pktSetn .outgoing 0 f f.length, .encSerialize]

/-- `decode(w)` of R118: from the construction state, `w` appended to `RXQ`, `DEC.POLL` issued until the
message is complete, an error is recorded, or a poll consumed nothing; the frame read where it is
complete. With all of `w` in `RXQ` the first poll settles it: it ends complete, in error, or with
`RXQ` empty, and then a further poll consumes nothing. -/
def referenceDecode (c : Config) (w : List Byte) : Option (List Byte) :=
  let s := referencePoll { State.construct c with rxq := w }
  if s.dec.complete then s.inp.frame else none

end Sys2Proof.Machine
end

