-- ==== Sys2Proof/Safety.lean ====
section
/-! DEFINITION. The terms in which claims about runs are stated: a step that goes on, the invariants of
the spec, a quiet transport, and the transport's progress that `flush()` waits for. -/

namespace Sys2Proof.Machine

open Host (Outcome)

/-- The machine goes on from `s`: the step neither faults nor refuses. -/
def State.goesOn (s : State) : Prop := ∃ t, step s = .next t

/-- The invariants of a packet with ceiling `maxLen` (R27): the frame store is in canonical form, no
cell at or above the capacity has been written, the capacity is at most the ceiling. -/
abbrev Packet.inv (maxLen : Nat) (k : Packet) : Prop :=
  k.buf.wf ∧ (∀ c ∈ k.buf, c.1 < k.cap) ∧ k.cap ≤ maxLen

/-- The invariants of the cursor: an escape is pending only in escaped mode and at `idx >= 1` (R30),
and the cursor is at most `M_IN + 1` once past the length bytes (R28, R198). -/
abbrev State.cursorInv (s : State) : Prop :=
  (s.dec.escaping = true → s.cfg.escapedMode = true ∧ 1 ≤ s.dec.idx) ∧
    s.dec.idx ≤ max 3 (s.cfg.mIn + 1)

/-- The invariant that every step keeps. -/
abbrev State.inv (s : State) : Prop :=
  s.inp.inv s.cfg.mIn ∧ s.out.inv s.cfg.mOut ∧ s.cursorInv

/-- The host's queue holds host operations only (R116). -/
abbrev State.hostqWf (s : State) : Prop := ∀ i ∈ s.hostq, i.isHostOp = true ∧ i.wellFormed = true

/-- The transport is at rest and the host issues nothing more: the block moves alone. -/
abbrev State.quiet (s : State) : Prop := s.turns = [] ∧ s.hostq = []

/-- A run of `n` steps that goes on, as a relation: `n` next states from `s` to `t`. -/
def runsTo : Nat → State → State → Prop
  | 0, s, t => s = t
  | n + 1, s, t => ∃ u, step s = .next u ∧ runsTo n u t

/-- `FLUSH_PROGRESS` (R7, D19) for a given schedule: the transport sends at least as many bytes as
`TXQ` holds. An assumption about the environment, which no rule of the block gives. -/
def State.flushProgress (s : State) : Prop := s.txq.length ≤ s.turns.count .send

/-- A `DEC.POLL` about to take its entry step, with `bytes` in `RXQ` and the transport at rest: what
`exec .decPoll` leaves (R170). -/
def State.polling (s : State) (bytes : List Byte) : State :=
  { s with call := .entry, flight := none, turns := [], rxq := bytes }

/-- A read of frame index `i` through `PKT.GET` may give `v` (R143, R258): 0 at or above the frame length;
below it the value of the cell, or any byte where the cell has never been written (R73). -/
abbrev Packet.readsAs (k : Packet) (i : Nat) (v : Byte) : Prop :=
  if i < k.frameLength.toNat then k.peek i = none ∨ k.peek i = some v else v = 0x00

/-- Reads of consecutive frame indices from `i` on may give these bytes. -/
abbrev Packet.readsSpan (k : Packet) (i : Nat) (bytes : List Byte) : Prop :=
  ∀ j (h : j < bytes.length), k.readsAs (i + j) bytes[j]

/-- A read of the payload span from index `n` on may give this (R250): the bytes from there to the end of
the frame, and no payload where the frame is shorter than `n` (log 9). -/
def Packet.readsPayload (k : Packet) (n : Nat) : Option (List Byte) → Prop
  | none => k.frameLength.toNat < n
  | some bytes => n + bytes.length = k.frameLength.toNat ∧ k.readsSpan n bytes

/-- A packet after policed reads of all indices below `n`: `FrameLengthExceeded` is recorded where the
frame is shorter (R143, R258). -/
def Packet.policed (k : Packet) (n : Nat) : Packet :=
  { k with
    errorCode := if k.frameLength.toNat < n then .frameLengthExceeded else k.errorCode }

/-- The next `DEC.POLL` decodes from the start of a message: the decoder is terminal for another reason
than `UnexpectedPacketStart` (R171), or it is in `AWAIT_START` with a clear cursor (R322). -/
abbrev State.atMessageStart (s : State) : Prop :=
  (s.terminal = true ∧ s.inp.errorCode ≠ .unexpectedPacketStart) ∨
    (s.inp.errorCode = .noError ∧
      s.dec = { idx := 0, escaping := false, csum := 0, complete := false })

end Sys2Proof.Machine

namespace Sys2Proof

open Machine

/-- The matrix of R304: the codes that an instruction can record on a packet. The cell of `DEC.POLL` is
that of the units and rows its call runs (R284, R285, R286, R288), the cell of `ENC.SERIALIZE` that of
its rows; the prepare forms are `PKT.SET` sequences (R251), and the read forms read through `PKT.GET`
(R258). -/
def Instr.records : Instr → PacketId → List ErrorCode
  | .pktGet p _, q => if p = q then [.frameLengthExceeded] else []
  | .pktSet p _ _, q | .pktSetn p _ _ _, q => if p = q then [.maxFrameLengthExceeded] else []
  | .decErrStart, .incoming => [.unexpectedPacketStart]
  | .decErrNostart _, .incoming => [.packetIncomplete]
  | .decErrOverlen _, .incoming => [.maxFrameLengthExceeded]
  | .decCkFail _, .incoming => [.checksumFailure]
  | .ftAtCommand (.prepare _), .outgoing | .ftTransmitRequest (.prepare _), .outgoing
  | .ftRemoteAtCommand (.prepare _), .outgoing => [.maxFrameLengthExceeded]
  | .ftAtCommandResponse .read, .incoming | .ftModemStatus .read, .incoming | .ftTxStatus .read, .incoming
  | .ftRxReceived .read, .incoming | .ftRemoteAtCommandResponse .read, .incoming => [.frameLengthExceeded]
  | i, .incoming =>
    if i.isWireUnit then
      [.unexpectedPacketStart, .packetIncomplete, .maxFrameLengthExceeded, .checksumFailure]
    else []
  | _, .outgoing => []

/-- The instructions that can clear a packet's code (R290): `PKT.RESET`, on `IN` also the restart of
`DEC.ENTRY`, `DEC.RESET`, `DEC.CK.OK` and the unit that completes a message, on `OUT` also the prepare
forms, which begin with `PKT.RESET` (R251). -/
def Instr.clears : Instr → PacketId → Bool
  | .pktReset p, q => p == q
  | .decEntryRestart, q | .decEntryResume1, q | .decReset, q | .decCkOk _, q => q == .incoming
  | .ftAtCommand (.prepare _), q | .ftTransmitRequest (.prepare _), q
  | .ftRemoteAtCommand (.prepare _), q => q == .outgoing
  | i, q => i.isWireUnit && q == .incoming

/-- The instructions of the receive path (R2): the wire units, the decoder's rows and operations, the
operations on `IN` and the field decoders. -/
def Instr.receivePath : Instr → Bool
  | .encStart | .encPutRaw _ | .encPutEsc _ | .encLenMsb | .encLenLsb | .encData | .encCsum | .encFlush
  | .encSerialize => false
  | .bufEnsure p _ | .bufGet p _ | .bufSet p _ _ | .pktGet p _ | .pktSet p _ _ | .pktSetn p _ _ _
  | .pktLenMsb p | .pktLenLsb p | .pktSetLenMsb p _ | .pktSetLenLsb p _ | .pktCalcChecksum p
  | .pktReset p | .pktIsError p | .pktErrorCode p | .pktFrameLength p | .pktChecksum p => p == .incoming
  | .ftAtCommand (.prepare _) | .ftTransmitRequest (.prepare _) | .ftRemoteAtCommand (.prepare _) => false
  | _ => true

end Sys2Proof
end

