-- ==== Sys2Proof/Certificates/Slice0/Obligations.lean ====
section
/-! DEFINITION. The statements for the provers. A docstring names the rule of spec/ that a statement
formalises, and the log entry where it rests on a choice. An equation `exec i s = .next { s with … }` says
the result and the frame at once: every field not named keeps its value. -/

open Sys2Proof Sys2Proof.Machine

/-! ### Encoding (R104, R105, R109, R110, R114, R124) -/

/-- Decode and encode agree on every unit of the wire stream, whatever follows it; only a lone `ESCAPE` must be the
last byte available, since any byte after it is its partner (R124). -/
def Obligations.WireUnitDecodeEncode : Prop :=
  ∀ (i : Instr) (rest : List Byte), i.isWireUnit = true → i.wellFormed = true →
    (i = .escape → rest = []) →
    ∃ bytes, encode i = some bytes ∧ decode (wireContextOf i) (bytes ++ rest) = .ok (i, rest)

/-- What the decoder reads is a well-formed unit whose encoding is the bytes it took, two of them exactly where
escapes are recognised and a `0x7D` has a byte after it (R124); and every byte is accepted (R109). -/
def Obligations.WireUnitEncodeDecode : Prop :=
  ∀ (c : WireContext) (b : Byte) (queue : List Byte),
    ∃ (i : Instr) (rest bytes : List Byte), decode c (b :: queue) = .ok (i, rest) ∧
      i.isWireUnit = true ∧ i.wellFormed = true ∧ encode i = some bytes ∧ b :: queue = bytes ++ rest ∧
      (bytes.length = 2 ↔ c.escapes = true ∧ b = 0x7D ∧ queue ≠ [])

/-- A few words written out from the encoding tables of R104, R105, R110 and R114. That the bare words `0x8A` and `0x08`
are the frame-type rows and not `DATA`, while `0x11` is `XON` and not `FT.EXPLICIT_ADDRESSING`, is the model's choice of
precedence among rows that overlap on a bare word (log 5, DEDUCED); no rule gives it. -/
def Obligations.TableWordsDecode : Prop :=
  decodeTableWord 8 0b01111110 = some .start ∧
  decodeTableWord 8 0b01111101 = some .escape ∧
  decodeTableWord 8 0b00010001 = some .xon ∧
  decodeTableWord 8 0b00010011 = some .xoff ∧
  decodeTableWord 8 0b01000001 = some (.data 0x41) ∧
  decodeTableWord 16 0b0111110101011110 = some .escStart ∧
  decodeTableWord 16 0b0111110101011101 = some .escEscape ∧
  decodeTableWord 16 0b0111110100110001 = some .escXon ∧
  decodeTableWord 16 0b0111110100110011 = some .escXoff ∧
  decodeTableWord 16 0b0111110101000001 = some (.escGeneric 0x41) ∧
  decodeTableWord 8 0b10001010 = some (.ftModemStatus .wire) ∧
  decodeTableWord 8 0b00001000 = some (.ftAtCommand .wire)

/-- The tests of R109 are total: the byte in flight always meets one row, that row is a well-formed instruction
whose table encoding is the byte, and its condition holds, so that the byte moves on to a later order or the byte
step ends. -/
def Obligations.EveryByteMeetsItsRow : Prop :=
  ∀ (s : State) (f : Flight), s.flight = some f →
    (selectRow f s).wellFormed = true ∧ encode (selectRow f s) = some [f.byte] ∧
    ∃ t, exec (selectRow f s) s = .next t ∧
      (t.flight = none ∨ ∃ g, t.flight = some g ∧
        (f.order = .escape ∧ g.order ≠ .escape ∨ f.order = .sum ∧ g.order = .dispatch))

/-! ### The step (R10, R11, R172, R210) -/

/-- A step at a raw unit of the stream runs the decoded instruction on the state less the unit's bytes, with the
schedule empty or at a `unit` turn. -/
def Obligations.StepRunsDecodedUnit : Prop :=
  ∀ (s : State) (i : Instr) (rest : List Byte) (ts : List Turn),
    s.call = .drain → s.flight = none → decode s.wireContext s.rxq = .ok (i, rest) →
    (s.turns = [] → step s = exec i { s with rxq := rest }) ∧
    (s.turns = .unit :: ts → step s = exec i { s with turns := ts, rxq := rest })

/-- A step inside a call runs the row that the state selects: the entry row, the row of the byte in flight,
`DEC.FETCH` at an empty queue or at a `row` turn, the encoder's next row. -/
def Obligations.StepRunsSelectedRow : Prop :=
  ∀ (s : State) (f : Flight) (e : EncTemps) (ts : List Turn),
    (s.turns = [] → s.call = .entry → step s = exec (entryRow s) s) ∧
    (s.turns = [] → s.call = .drain → s.flight = some f → step s = exec (selectRow f s) s) ∧
    (s.turns = [] → s.call = .drain → s.flight = none → s.rxq = [] → step s = exec .decFetch s) ∧
    (s.turns = [] → s.call = .serialize e → step s = exec (encoderRow e s) s) ∧
    (s.turns = .row :: ts → s.call = .drain → s.flight = none →
      step s = exec .decFetch { s with turns := ts })

/-- Between calls a step issues the host's next operation, does nothing where there is none, and refuses what is no
host operation (R11, R116; log 17). -/
def Obligations.StepRunsHostOperation : Prop :=
  ∀ (s : State) (i : Instr) (rest : List Instr), s.turns = [] → s.call = .idle →
    (s.hostq = [] → step s = .next s) ∧
    (s.hostq = i :: rest → i.isHostOp = true → step s = exec i { s with hostq := rest }) ∧
    (s.hostq = i :: rest → i.isHostOp = false → step s = .refused .notHostOperation)

/-- The transport's turns (R35, R36): a received byte goes to the tail of `RXQ`; the head of `TXQ` goes to the tail of
`SENT`; with nothing to send nothing happens. -/
def Obligations.TransportTurns : Prop :=
  ∀ (s : State) (b : Byte) (q : List Byte) (ts : List Turn),
    (s.turns = .arrive b :: ts → step s = .next { s with turns := ts, rxq := s.rxq ++ [b] }) ∧
    (s.turns = .send :: ts → s.txq = b :: q →
      step s = .next { s with turns := ts, txq := q, sent := s.sent ++ [b] }) ∧
    (s.turns = .send :: ts → s.txq = [] → step s = .next { s with turns := ts })

/-! ### Reset (R39, R321) -/

/-- Every field of the state after construction with parameters `c`, and that `State.reset` is the construction with
the defaults of R7. The transport's queues, the host's queue and the result are the model's choice (log 6). -/
def Obligations.ResetValues : Prop :=
  (∀ c : Config, State.construct c =
    { cfg := c
      inp := { buf := [], cap := c.cInit, frameLength := 0, checksum := 0, errorCode := .noError }
      out := { buf := [], cap := c.cInit, frameLength := 0, checksum := 0, errorCode := .noError }
      dec := { idx := 0, escaping := false, csum := 0, complete := false }
      flight := none, call := .idle, rxq := [], txq := [], sent := [], hostq := [], turns := []
      result := .none, lastFrameId := c.frameIdInit, draws := 0 }) ∧
  State.reset = State.construct Config.default ∧
  Config.default.mIn = 50 ∧ Config.default.mOut = 50 ∧ Config.default.escapedMode = true ∧
  Config.default.cInit = 0

/-- Construction with legal parameters (R7) meets the invariant, and so does reset. -/
def Obligations.ConstructionKeepsInvariant : Prop :=
  (∀ c : Config, c.wf → (State.construct c).inv) ∧ State.reset.inv

/-! ### Invariants and whole-machine rules -/

/-- Every step keeps the invariant: both frame stores canonical with no cell at or above the capacity and the capacity at
most the ceiling (R27), an escape pending only in escaped mode past offset 0 (R30), the cursor at most `M_IN + 1`
once past the length bytes (R28). -/
def Obligations.StepKeepsInvariant : Prop :=
  ∀ s t : State, s.inv → step s = .next t → t.inv

/-- No step changes a parameter, and no step lowers a capacity (R22, R26, R27 b and c). -/
def Obligations.ParametersFixedCapacityGrows : Prop :=
  ∀ s t : State, step s = .next t →
    t.cfg = s.cfg ∧ s.inp.cap ≤ t.inp.cap ∧ s.out.cap ≤ t.out.cap

/-- `IN` and `OUT` are disjoint: an instruction of the receive path neither reads nor writes `OUT` and `TXQ`, one of the
transmit path neither reads nor writes `IN`, the cursor and `RXQ`. -/
def Obligations.PacketsDisjoint : Prop :=
  ∀ (i : Instr) (s t : State) (k : Packet) (c : Cursor) (q : List Byte), exec i s = .next t →
    (i.receivePath = true → t.out = s.out ∧ t.txq = s.txq ∧
      exec i { s with out := k, txq := q } = .next { t with out := k, txq := q }) ∧
    (i.receivePath = false → t.inp = s.inp ∧ t.dec = s.dec ∧ t.rxq = s.rxq ∧
      exec i { s with inp := k, dec := c, rxq := q } = .next { t with inp := k, dec := c, rxq := q })

/-- The queues (R35, R36, R75, R76): a step takes at most two bytes, from the head of `RXQ`, or appends one arriving byte
at its tail; it appends to `TXQ` at its tail, or sends one byte from its head to the tail of `SENT`. -/
def Obligations.QueuesFirstInFirstOut : Prop :=
  ∀ s t : State, step s = .next t →
    ((∃ b ts, s.turns = .arrive b :: ts ∧ t.rxq = s.rxq ++ [b]) ∨
      ∃ taken, taken.length ≤ 2 ∧ s.rxq = taken ++ t.rxq) ∧
    ((∃ b ts, s.turns = .send :: ts ∧ s.txq = b :: t.txq ∧ t.sent = s.sent ++ [b]) ∨
      (t.sent = s.sent ∧ ∃ put, t.txq = s.txq ++ put))

/-- The matrix of R304, and what clears a code (R283 to R288, R290): an instruction leaves a packet's code as it was, or
records one that the matrix (`Instr.records`) has for it, or clears it and is one that clears (`Instr.clears`). So code
4 is recorded by `PKT.SET`, `PKT.SETN`, the prepare forms and the decoder alone, code 5 by `PKT.GET` and the field
decoders alone, and the rows with an empty cell record nothing. Besides, in clauses of their own: code 1 is never
recorded; codes 2, 3 and 6 never on `OUT` and never by a host operation; code 2 only in escaped mode; codes 4 and 5 on
`OUT` only by host operations. -/
def Obligations.ErrorCodeMatrix : Prop :=
  ∀ (i : Instr) (s t : State), exec i s = .next t →
    (∀ p : PacketId, (t.pkt p).errorCode = (s.pkt p).errorCode ∨
      (t.pkt p).errorCode ∈ i.records p ∨ (t.pkt p).errorCode = .noError ∧ i.clears p = true) ∧
    (t.inp.errorCode = .reallocationFailed → s.inp.errorCode = .reallocationFailed) ∧
    (t.out.errorCode ∈ [.reallocationFailed, .unexpectedPacketStart, .packetIncomplete, .checksumFailure] →
      s.out.errorCode = t.out.errorCode) ∧
    (i.isHostOp = true → t.inp.errorCode ∈ [.unexpectedPacketStart, .packetIncomplete, .checksumFailure] →
      s.inp.errorCode = t.inp.errorCode) ∧
    (t.inp.errorCode = .unexpectedPacketStart →
      s.inp.errorCode = .unexpectedPacketStart ∨ s.cfg.escapedMode = true) ∧
    (i.isHostOp = false →
      (t.inp.errorCode = .frameLengthExceeded → s.inp.errorCode = .frameLengthExceeded) ∧
      t.out.errorCode = s.out.errorCode)

/-- In unescaped mode `DEC.escaping` is never set and `UnexpectedPacketStart` is never recorded (R188). -/
def Obligations.UnescapedModeNeverSuspends : Prop :=
  ∀ s t : State, s.cfg.escapedMode = false → step s = .next t →
    (t.dec.escaping = true → s.dec.escaping = true) ∧
    (t.inp.errorCode = .unexpectedPacketStart → s.inp.errorCode = .unexpectedPacketStart)

/-! ### FrameBuffer operations (R140 to R142) -/

/-- `BUF.ENSURE`: the capacity raised to exactly `size` where that is a growth within the ceiling, and nothing else. That
growth cannot fail is decision D7 (log 15). -/
def Obligations.BufEnsureResult : Prop :=
  ∀ (s : State) (p : PacketId) (size : Nat),
    (((s.pkt p).cap < size ∧ size ≤ s.maxLen p) →
      exec (.bufEnsure p size) s =
        .next { s.setPkt p { s.pkt p with cap := size } with result := .none }) ∧
    (¬ ((s.pkt p).cap < size ∧ size ≤ s.maxLen p) →
      exec (.bufEnsure p size) s = .next { s with result := .none })

/-- `BUF.GET`: the written cell; 0 at or above the capacity; some byte for a never-written cell below it. It records no
error. -/
def Obligations.BufGetResult : Prop :=
  ∀ (s : State) (p : PacketId) (i : Nat),
    (∀ b, i < (s.pkt p).cap → (s.pkt p).buf.read i = some b →
      exec (.bufGet p i) s = .next { s with result := .byte b }) ∧
    ((s.pkt p).cap ≤ i → exec (.bufGet p i) s = .next { s with result := .byte 0x00 }) ∧
    (i < (s.pkt p).cap → (s.pkt p).buf.read i = none →
      ∃ b n, exec (.bufGet p i) s = .next { s with result := .byte b, draws := n })

/-- `BUF.SET`: at or above the ceiling the write is dropped and the failure is only a result; below it the cell holds the
byte, every other cell reads as before, the capacity grows to `min(i + 10, M)` where the index needs it, and
nothing else of the packet changes. That growth cannot fail is decision D7 (log 15). -/
def Obligations.BufSetResult : Prop :=
  ∀ (s : State) (p : PacketId) (i : Nat) (v : Byte),
    (s.maxLen p ≤ i →
      exec (.bufSet p i v) s = .next { s with result := .failed .maxFrameLengthExceeded }) ∧
    (i < s.maxLen p → ∃ t, exec (.bufSet p i v) s = .next t ∧
      (t.pkt p).buf.read i = some v ∧
      (∀ j, j ≠ i → (t.pkt p).buf.read j = (s.pkt p).buf.read j) ∧
      (t.pkt p).cap = (if (s.pkt p).cap ≤ i then min (i + 10) (s.maxLen p) else (s.pkt p).cap) ∧
      i < (t.pkt p).cap ∧
      t.pkt p = { s.pkt p with buf := (t.pkt p).buf, cap := (t.pkt p).cap } ∧
      t = { s.setPkt p (t.pkt p) with result := .ok })

/-! ### Packet operations (R143 to R154) -/

/-- `PKT.GET`: below the frame length it is `BUF.GET`; at or above it, `FrameLengthExceeded` is recorded over any earlier
code and 0 is returned. -/
def Obligations.PktGetResult : Prop :=
  ∀ (s : State) (p : PacketId) (i : Nat),
    (i < (s.pkt p).frameLength.toNat → exec (.pktGet p i) s = exec (.bufGet p i) s) ∧
    (∀ b, i < (s.pkt p).frameLength.toNat → (s.pkt p).peek i = some b →
      exec (.pktGet p i) s = .next { s with result := .byte b }) ∧
    (i < (s.pkt p).frameLength.toNat → (s.pkt p).peek i = none →
      ∃ b n, exec (.pktGet p i) s = .next { s with result := .byte b, draws := n }) ∧
    ((s.pkt p).frameLength.toNat ≤ i →
      exec (.pktGet p i) s =
        .next { s.setPkt p { s.pkt p with errorCode := .frameLengthExceeded } with result := .byte 0x00 })

/-- `PKT.SET`: at or above the ceiling `MaxFrameLengthExceeded` is recorded and nothing written; below it the cell holds the
byte, every other cell reads as before, and the frame length is `max(frameLength, i + 1)`, an earlier error
staying (R144). Where `i + 1` does not fit 16 bits (`M > 65535`) the spec states no length (R155): that the write then
runs and leaves some value is the model's choice (log 3, DESIGN CHOICE). -/
def Obligations.PktSetResult : Prop :=
  ∀ (s : State) (p : PacketId) (i : Nat) (v : Byte),
    (s.maxLen p ≤ i →
      exec (.pktSet p i v) s =
        .next { s.setPkt p { s.pkt p with errorCode := .maxFrameLengthExceeded } with result := .none }) ∧
    (i < s.maxLen p → ∃ t, exec (.pktSet p i v) s = .next t ∧
      (t.pkt p).buf.read i = some v ∧
      (∀ j, j ≠ i → (t.pkt p).buf.read j = (s.pkt p).buf.read j) ∧
      (t.pkt p).cap = (if (s.pkt p).cap ≤ i then min (i + 10) (s.maxLen p) else (s.pkt p).cap) ∧
      (t.pkt p).checksum = (s.pkt p).checksum ∧ (t.pkt p).errorCode = (s.pkt p).errorCode ∧
      (i + 1 < 65536 →
        (t.pkt p).frameLength.toNat = max (s.pkt p).frameLength.toNat (i + 1) ∧ t.draws = s.draws) ∧
      t = { s.setPkt p (t.pkt p) with result := .none, draws := t.draws })

/-- `PKT.SETN`: a range past the ceiling is refused whole with `MaxFrameLengthExceeded` (decision D15); inside it the `n`
cells hold the bytes, every other cell reads as before, and the frame length is `max(frameLength, first + n)` for
`n > 0`; it is a `PKT.SET` of the first byte and the `PKT.SETN` of the rest (R118), so that the capacity is that of the
individual writes; a list of fewer than `n` bytes is no operand (log 17). Where `first + n` does not fit 16 bits the
length is some value (log 3). -/
def Obligations.PktSetnResult : Prop :=
  ∀ (s : State) (p : PacketId) (first n : Nat) (bytes : List Byte),
    (s.maxLen p < first + n →
      exec (.pktSetn p first bytes n) s =
        .next { s.setPkt p { s.pkt p with errorCode := .maxFrameLengthExceeded } with result := .none }) ∧
    (first + n ≤ s.maxLen p → bytes.length < n →
      exec (.pktSetn p first bytes n) s = .refused .byteListTooShort) ∧
    (first + n ≤ s.maxLen p → n ≤ bytes.length → ∃ t, exec (.pktSetn p first bytes n) s = .next t ∧
      (∀ k, k < n → (t.pkt p).buf.read (first + k) = bytes[k]?) ∧
      (∀ j, j < first ∨ first + n ≤ j → (t.pkt p).buf.read j = (s.pkt p).buf.read j) ∧
      (t.pkt p).checksum = (s.pkt p).checksum ∧ (t.pkt p).errorCode = (s.pkt p).errorCode ∧
      (first + n < 65536 →
        (t.pkt p).frameLength.toNat =
          (if n = 0 then (s.pkt p).frameLength.toNat else max (s.pkt p).frameLength.toNat (first + n)) ∧
        t.draws = s.draws) ∧
      t = { s.setPkt p (t.pkt p) with result := .none, draws := t.draws }) ∧
    (∀ b, first + (n + 1) ≤ s.maxLen p → n ≤ bytes.length → ∃ t, exec (.pktSet p first b) s = .next t ∧
      exec (.pktSetn p first (b :: bytes) (n + 1)) s = exec (.pktSetn p (first + 1) bytes n) t)

/-- `PKT.LEN_MSB`, `PKT.LEN_LSB`, `PKT.IS_ERROR` and `PKT.ERROR_CODE` (R146, R147, R152, R153): the two bytes of the 16-bit frame
length, the sticky code tested and read. The reads change nothing. -/
def Obligations.PktRegisterReads : Prop :=
  ∀ (s : State) (p : PacketId),
    exec (.pktLenMsb p) s =
      .next { s with result := .byte (BitVec.ofNat 8 ((s.pkt p).frameLength.toNat / 256)) } ∧
    exec (.pktLenLsb p) s =
      .next { s with result := .byte (BitVec.ofNat 8 ((s.pkt p).frameLength.toNat % 256)) } ∧
    exec (.pktIsError p) s =
      .next { s with result := .flag (decide ((s.pkt p).errorCode ≠ .noError)) } ∧
    exec (.pktErrorCode p) s = .next { s with result := .code (s.pkt p).errorCode }

/-- `PKT.SET_LEN_MSB` and `PKT.SET_LEN_LSB` (R148, R149): one byte of the length replaced, the other kept, whatever the
ceiling is; and the two commute. -/
def Obligations.PktLengthHalvesWritten : Prop :=
  ∀ (s : State) (p : PacketId) (v w : Byte),
    let len := (s.pkt p).frameLength.toNat
    let withLength (n : Nat) : State :=
      { s.setPkt p { s.pkt p with frameLength := BitVec.ofNat 16 n } with result := .none }
    exec (.pktSetLenMsb p v) s = .next (withLength (v.toNat * 256 + len % 256)) ∧
    exec (.pktSetLenLsb p v) s = .next (withLength (len / 256 * 256 + v.toNat)) ∧
    ∃ t u, exec (.pktSetLenMsb p v) s = .next t ∧ exec (.pktSetLenLsb p w) s = .next u ∧
      exec (.pktSetLenLsb p w) t = exec (.pktSetLenMsb p v) u

/-- `PKT.CALC_CHECKSUM`: `0xFF` minus the sum of the frame bytes where every cell below the frame length has a value, some
byte where one is never written; nothing else changes, the stored checksum included. That it returns the computed
value is decision D16. -/
def Obligations.PktCalcChecksumResult : Prop :=
  ∀ (s : State) (p : PacketId),
    (∀ frame, (s.pkt p).frame = some frame →
      exec (.pktCalcChecksum p) s = .next { s with result := .byte (0xFF - frameSum frame) }) ∧
    ∃ b n, exec (.pktCalcChecksum p) s = .next { s with result := .byte b, draws := n }

/-- `PKT.RESET` (R151): the three registers cleared; the store, the capacity and the cursor kept. -/
def Obligations.PktResetResult : Prop :=
  ∀ (s : State) (p : PacketId),
    exec (.pktReset p) s =
      .next { s.setPkt p { s.pkt p with frameLength := 0, checksum := 0, errorCode := .noError } with
        result := .none }

/-- `PKT.FRAME_LENGTH`, `PKT.CHECKSUM` and `DEC.IS_COMPLETE`: plain reads, which the spec adds by decision D2. -/
def Obligations.PlainReads : Prop :=
  ∀ (s : State) (p : PacketId),
    exec (.pktFrameLength p) s = .next { s with result := .half (s.pkt p).frameLength } ∧
    exec (.pktChecksum p) s = .next { s with result := .byte (s.pkt p).checksum } ∧
    exec .decIsComplete s = .next { s with result := .flag s.dec.complete }

/-- `DEC.POLL` and `ENC.SERIALIZE` begin their calls; `DEC.RESET` clears `IN`'s registers and the whole cursor and leaves
`RXQ`, the store and the capacity (decision D12). Where the calls lead is said by `PollRunsTheAlgorithm` and
`EncoderWritesTheMessage`. -/
def Obligations.CallOperations : Prop :=
  ∀ s : State,
    exec .decPoll s = .next { s with call := .entry, flight := none, result := .none } ∧
    exec .encSerialize s =
      .next { s with call := .serialize { stage := .start, sum := 0, i := 0 }, result := .none } ∧
    exec .decReset s =
      .next { s with
        inp := { s.inp with frameLength := 0, checksum := 0, errorCode := .noError }
        dec := { idx := 0, escaping := false, csum := 0, complete := false }
        result := .none }

/-! ### Decoder rows (R171 to R187). Each statement says also that the row is the one R109 selects. -/

/-- The three entry rows (R171, with decisions D9 and D10) and `DEC.FETCH` (R172): the head of `RXQ` begins a byte step; with
nothing available the call returns. -/
def Obligations.EntryAndFetchRows : Prop :=
  ∀ (s : State) (b : Byte) (q : List Byte),
    (s.dec.complete = true ∨ s.inp.errorCode ≠ .noError → s.inp.errorCode ≠ .unexpectedPacketStart →
      entryRow s = .decEntryRestart ∧ exec .decEntryRestart s =
        .next { s with
          inp := { s.inp with frameLength := 0, checksum := 0, errorCode := .noError }
          dec := { idx := 0, escaping := false, csum := 0, complete := false }
          call := .drain }) ∧
    (s.inp.errorCode = .unexpectedPacketStart →
      entryRow s = .decEntryResume1 ∧ exec .decEntryResume1 s =
        .next { s with
          inp := { s.inp with frameLength := 0, checksum := 0, errorCode := .noError }
          dec := { idx := 1, escaping := false, csum := 0, complete := false }
          call := .drain }) ∧
    (s.dec.complete = false → s.inp.errorCode = .noError →
      entryRow s = .decEntryContinue ∧ exec .decEntryContinue s = .next { s with call := .drain }) ∧
    (s.rxq = b :: q →
      exec .decFetch s =
        .next { s with rxq := q, flight := some { byte := b, fromEscape := false, order := .escape } }) ∧
    (s.rxq = [] → exec .decFetch s = .next { s with call := .idle, flight := none })

/-- The escape-sequence remover (R173, R174, R175): a pending escape is completed by whatever byte comes; an `ESCAPE` takes the
byte after it; an `ESCAPE` with nothing after it suspends the call. -/
def Obligations.EscapeRemoverRows : Prop :=
  ∀ (s : State) (r x : Byte) (q : List Byte), s.cfg.escapedMode = true →
    (s.dec.escaping = true →
      selectRow { byte := r, fromEscape := false, order := .escape } s = .decUnesc r ∧
      exec (.decUnesc r) s =
        .next { s with
          dec := { s.dec with escaping := false }
          flight := some { byte := r ^^^ 0x20, fromEscape := true, order := .sum } }) ∧
    (s.dec.escaping = false → 0 < s.dec.idx → s.rxq = x :: q →
      selectRow { byte := 0x7D, fromEscape := false, order := .escape } s = .decEscInline ∧
      exec .decEscInline s =
        .next { s with
          rxq := q
          flight := some { byte := x ^^^ 0x20, fromEscape := true, order := .sum } }) ∧
    (s.dec.escaping = false → 0 < s.dec.idx → s.rxq = [] →
      selectRow { byte := 0x7D, fromEscape := false, order := .escape } s = .decEscSuspend ∧
      exec .decEscSuspend s =
        .next { s with dec := { s.dec with escaping := true }, call := .idle, flight := none })

/-- The error rows `DEC.ERR.START`, `DEC.ERR.NOSTART` and `DEC.ERR.OVERLEN` (R177, R180, R183): the code is recorded on `IN`,
the call ends, and nothing else changes. -/
def Obligations.DecoderErrorRows : Prop :=
  ∀ (s : State) (b : Byte),
    (s.cfg.escapedMode = true → s.fromEscape = false → 0 < s.dec.idx →
      (s.dec.escaping = false →
        selectRow { byte := 0x7E, fromEscape := false, order := .escape } s = .decErrStart) ∧
      exec .decErrStart s =
        .next { s with
          inp := { s.inp with errorCode := .unexpectedPacketStart }, call := .idle, flight := none }) ∧
    (s.dec.idx = 0 → b ≠ 0x7E →
      dispatchRow b s = .decErrNostart b ∧
      exec (.decErrNostart b) s =
        .next { s with
          inp := { s.inp with errorCode := .packetIncomplete }, call := .idle, flight := none }) ∧
    (3 ≤ s.dec.idx → s.cfg.mIn < s.dec.idx →
      dispatchRow b s = .decErrOverlen b ∧
      exec (.decErrOverlen b) s =
        .next { s with
          inp := { s.inp with errorCode := .maxFrameLengthExceeded }, call := .idle, flight := none })

/-- `DEC.CSUM` and `DEC.SOF` (R178, R179). -/
def Obligations.SumAndStartRows : Prop :=
  ∀ (s : State) (b : Byte),
    (3 ≤ s.dec.idx →
      sumRow b s = .decCsum b ∧
      exec (.decCsum b) s =
        .next { s with
          dec := { s.dec with csum := BitVec.ofNat 8 ((s.dec.csum.toNat + b.toNat) % 256) }
          flight := some { byte := b, fromEscape := s.fromEscape, order := .dispatch } }) ∧
    (s.dec.idx = 0 →
      dispatchRow 0x7E s = .decSof ∧
      exec .decSof s = .next { s with dec := { s.dec with idx := 1 }, flight := none })

/-- `DEC.LEN_MSB` and `DEC.LEN_LSB` (R181, R182): a byte of the expected length loaded, the other kept, without a check
against the ceiling. -/
def Obligations.LengthRows : Prop :=
  ∀ (s : State) (b : Byte),
    (s.dec.idx = 1 →
      dispatchRow b s = .decLenMsb b ∧
      exec (.decLenMsb b) s =
        .next { s with
          inp := { s.inp with
            frameLength := BitVec.ofNat 16 (b.toNat * 256 + s.inp.frameLength.toNat % 256) }
          dec := { s.dec with idx := 2 }
          flight := none }) ∧
    (s.dec.idx = 2 →
      dispatchRow b s = .decLenLsb b ∧
      exec (.decLenLsb b) s =
        .next { s with
          inp := { s.inp with
            frameLength := BitVec.ofNat 16 (s.inp.frameLength.toNat / 256 * 256 + b.toNat) }
          dec := { s.dec with idx := 3 }
          flight := none })

/-- `DEC.CK.OK` and `DEC.CK.FAIL` at the checksum position (R184, R185, with decision D11 for the cursor and the checksum
register). -/
def Obligations.ChecksumRows : Prop :=
  ∀ (s : State) (b : Byte), 3 ≤ s.dec.idx → s.dec.idx ≤ s.cfg.mIn →
    s.dec.idx = s.inp.frameLength.toNat + 3 →
    (s.dec.csum = 0xFF →
      dispatchRow b s = .decCkOk b ∧
      exec (.decCkOk b) s =
        .next { s with
          dec := { s.dec with complete := true }
          inp := { s.inp with checksum := b, errorCode := .noError }
          call := .idle
          flight := none }) ∧
    (s.dec.csum ≠ 0xFF →
      dispatchRow b s = .decCkFail b ∧
      exec (.decCkFail b) s =
        .next { s with
          inp := { s.inp with errorCode := .checksumFailure }, call := .idle, flight := none })

/-- `DEC.STORE` (R186, R187, R191): the byte goes to index `idx - 3`, every other cell reads as before, the cursor advances
by one; the length stays, or, where the host has lowered it in mid-message, becomes `idx - 2`, some value where that
does not fit 16 bits (log 3). -/
def Obligations.StoreRow : Prop :=
  ∀ (s : State) (b : Byte), 3 ≤ s.dec.idx → s.dec.idx ≤ s.cfg.mIn →
    s.dec.idx ≠ s.inp.frameLength.toNat + 3 →
    dispatchRow b s = .decStore b ∧
    ∃ t, exec (.decStore b) s = .next t ∧
      t.inp.buf.read (s.dec.idx - 3) = some b ∧
      (∀ j, j ≠ s.dec.idx - 3 → t.inp.buf.read j = s.inp.buf.read j) ∧
      t.inp.cap =
        (if s.inp.cap ≤ s.dec.idx - 3 then min (s.dec.idx - 3 + 10) s.cfg.mIn else s.inp.cap) ∧
      t.inp.checksum = s.inp.checksum ∧ t.inp.errorCode = s.inp.errorCode ∧
      (s.dec.idx < s.inp.frameLength.toNat + 3 →
        t.inp.frameLength = s.inp.frameLength ∧ t.draws = s.draws) ∧
      (s.inp.frameLength.toNat + 3 < s.dec.idx → s.dec.idx - 2 < 65536 →
        t.inp.frameLength.toNat = s.dec.idx - 2 ∧ t.draws = s.draws) ∧
      t = { s with
        inp := t.inp, dec := { s.dec with idx := s.dec.idx + 1 }, flight := none, draws := t.draws }

/-! ### The wire units (groups W, X and T) -/

/-- Every unit of the wire stream runs one byte step of the algorithm of R170 in every state, whatever the byte: a
one-byte unit on its byte, an escape sequence on its `ESCAPE` with the second byte at the head of `RXQ`. -/
def Obligations.WireUnitsRunTheAlgorithm : Prop :=
  ∀ (i : Instr) (b x : Byte) (s : State), i.isWireUnit = true → s.flight = none →
    (encode i = some [b] → exec i s = .next (referenceByte b s)) ∧
    (encode i = some [b, x] → exec i s = .next (referenceByte 0x7D { s with rxq := x :: s.rxq }))

/-- Row by row or at once: `row` turns take the byte at the head of `RXQ` through the rows that R109 selects to the state
that R170 gives for the whole byte step. -/
def Obligations.RowsMakeTheByteStep : Prop :=
  ∀ (s : State) (b : Byte) (q : List Byte), s.call = .drain → s.flight = none → s.rxq = b :: q →
    ∃ n, 2 ≤ n ∧ n ≤ 4 ∧
      runsTo n { s with turns := List.replicate n .row }
        { referenceByte b { s with rxq := q } with turns := [] }

/-- A raw START (R177, R179, R292): at offset 0 it begins a message; past it, in escaped mode with no escape pending, it is
`UnexpectedPacketStart` whatever the cursor is, is not summed, and leaves the rest of `RXQ`. A raw ESCAPE (R175,
R176): at offset 0 it is a stray byte, `PacketIncomplete`; past it, in escaped mode, as the last byte available,
it leaves `DEC.escaping` set and nothing else changed. -/
def Obligations.StartAndEscapeUnits : Prop :=
  ∀ s : State, s.flight = none → s.dec.escaping = false →
    (s.dec.idx = 0 → exec .start s = .next { s with dec := { s.dec with idx := 1 } }) ∧
    (0 < s.dec.idx → s.cfg.escapedMode = true →
      exec .start s =
        .next { s with inp := { s.inp with errorCode := .unexpectedPacketStart }, call := .idle }) ∧
    (s.dec.idx = 0 →
      exec .escape s =
        .next { s with inp := { s.inp with errorCode := .packetIncomplete }, call := .idle }) ∧
    (0 < s.dec.idx → s.cfg.escapedMode = true → s.rxq = [] →
      exec .escape s = .next { s with dec := { s.dec with escaping := true }, call := .idle })

/-- A frame byte received raw, XON and XOFF and every frame-type code among them (R111, R115, R178, R186): it is stored at
index `idx - 3` and summed, the cursor advances, nothing is interpreted. In escaped mode START and ESCAPE are no frame
bytes; in unescaped mode they are data like any other (R108, R188). -/
def Obligations.FrameByteUnits : Prop :=
  ∀ (s : State) (i : Instr) (b : Byte), i.isWireUnit = true → i.wellFormed = true →
    encode i = some [b] → s.cfg.escapedMode = false ∨ (b ≠ 0x7E ∧ b ≠ 0x7D) →
    s.flight = none → s.dec.escaping = false → 3 ≤ s.dec.idx → s.dec.idx ≤ s.cfg.mIn →
    s.dec.idx < s.inp.frameLength.toNat + 3 →
    ∃ t, exec i s = .next t ∧
      t.inp.buf.read (s.dec.idx - 3) = some b ∧
      (∀ j, j ≠ s.dec.idx - 3 → t.inp.buf.read j = s.inp.buf.read j) ∧
      t.inp.cap =
        (if s.inp.cap ≤ s.dec.idx - 3 then min (s.dec.idx - 3 + 10) s.cfg.mIn else s.inp.cap) ∧
      t.inp = { s.inp with buf := t.inp.buf, cap := t.inp.cap } ∧
      t = { s with inp := t.inp, dec := { s.dec with idx := s.dec.idx + 1, csum := s.dec.csum + b } }

/-- A frame byte received as an escape sequence (R105, R110, R174): the second byte xor `0x20` is stored and summed, reserved
or not; the pair advances the cursor by one. -/
def Obligations.EscapedFrameByteUnits : Prop :=
  ∀ (s : State) (i : Instr) (x : Byte), i.isWireUnit = true →
    encode i = some [0x7D, x] → s.cfg.escapedMode = true →
    s.flight = none → s.dec.escaping = false → 3 ≤ s.dec.idx → s.dec.idx ≤ s.cfg.mIn →
    s.dec.idx < s.inp.frameLength.toNat + 3 →
    ∃ t, exec i s = .next t ∧
      t.inp.buf.read (s.dec.idx - 3) = some (x ^^^ 0x20) ∧
      (∀ j, j ≠ s.dec.idx - 3 → t.inp.buf.read j = s.inp.buf.read j) ∧
      t.inp.cap =
        (if s.inp.cap ≤ s.dec.idx - 3 then min (s.dec.idx - 3 + 10) s.cfg.mIn else s.inp.cap) ∧
      t.inp = { s.inp with buf := t.inp.buf, cap := t.inp.cap } ∧
      t = { s with
        inp := t.inp, dec := { s.dec with idx := s.dec.idx + 1, csum := s.dec.csum + (x ^^^ 0x20) } }

/-! ### Whole calls of the decoder -/

/-- A `DEC.POLL` with the transport at rest runs the algorithm of R170 from its entry to its return, in at most two steps more
than there are bytes in `RXQ`; it always returns (R195). -/
def Obligations.PollRunsTheAlgorithm : Prop :=
  ∀ (s : State) (bytes : List Byte),
    (referencePoll (s.polling bytes)).call = .idle ∧
    ∃ n, n ≤ bytes.length + 2 ∧ runsTo n (s.polling bytes) (referencePoll (s.polling bytes))

/-- Incremental equivalence (R193): a call on the bytes `u ++ v` ends where a call on `u` and then a call on `v` end, unless
the first ends in a terminal state; then the call on `u ++ v` ends in that same state with `v` left in `RXQ`. -/
def Obligations.IncrementalEquivalence : Prop :=
  ∀ (s : State) (u v : List Byte), ∃ (n m : Nat) (a w : State),
    runsTo n (s.polling u) a ∧ runsTo m (s.polling (u ++ v)) w ∧ a.call = .idle ∧ w.call = .idle ∧
    (a.terminal = true → w = { a with rxq := a.rxq ++ v }) ∧
    (a.terminal = false → a.rxq = [] ∧ ∃ k, runsTo k (a.polling v) w)

/-- The checksum verdict (R103, R221): a message with frame `f`, short enough for the decoder, and any checksum byte `k`
completes exactly where the frame's sum and `k` make `0xFF`; otherwise the code is `ChecksumFailure`. Either way
the frame is stored and readable and `RXQ` is drained. -/
def Obligations.ChecksumVerdict : Prop :=
  ∀ (s : State) (f : List Byte) (k : Byte), s.atMessageStart → f.length < 65536 →
    f.length + 3 ≤ s.cfg.mIn →
    ∃ n u, runsTo n (s.polling (messageWith s.cfg.escapedMode f k)) u ∧
      u.call = .idle ∧ u.rxq = [] ∧ u.inp.frame = some f ∧ u.dec.idx = f.length + 3 ∧
      (frameSum f + k = 0xFF →
        u.dec.complete = true ∧ u.inp.errorCode = .noError ∧ u.inp.checksum = k) ∧
      (frameSum f + k ≠ 0xFF →
        u.dec.complete = false ∧ u.inp.errorCode = .checksumFailure)

/-- The longest frame (R190, R183): a message whose frame has more than `M_IN - 3` bytes ends in `MaxFrameLengthExceeded` at
the byte met at `idx = M_IN + 1`, after `M_IN - 2` bytes have been stored, even where its checksum is right. -/
def Obligations.OverlongFrameRejected : Prop :=
  ∀ (s : State) (f : List Byte) (k : Byte), s.atMessageStart → f.length < 65536 →
    2 ≤ s.cfg.mIn → s.cfg.mIn < f.length + 3 →
    ∃ n u, runsTo n (s.polling (messageWith s.cfg.escapedMode f k)) u ∧
      u.call = .idle ∧ u.dec.complete = false ∧ u.inp.errorCode = .maxFrameLengthExceeded ∧
      u.dec.idx = s.cfg.mIn + 1 ∧ u.inp.frameLength.toNat = f.length ∧
      ∀ j, j < s.cfg.mIn - 2 → u.inp.peek j = f[j]?

/-! ### The encoder (R210 to R219) -/

/-- `ENC.START`, `ENC.PUT.RAW` and `ENC.PUT.ESC` (R211, R212): each appends to `TXQ` the bytes of its table encoding, the two put
rows where byte-stuffing does not, or does, apply to the byte. -/
def Obligations.PutRows : Prop :=
  ∀ (s : State) (t : EncTemps) (b : Byte),
    (s.call = .serialize t → t.stage = .start →
      encoderRow t s = .encStart ∧
      exec .encStart s =
        .next { s with txq := s.txq ++ [0x7E], call := .serialize { t with stage := .lenMsb } }) ∧
    (s.cfg.escapedMode = false ∨ (b ≠ 0x7E ∧ b ≠ 0x7D ∧ b ≠ 0x11 ∧ b ≠ 0x13) →
      encode (.encPutRaw b) = some [b] ∧
      exec (.encPutRaw b) s = .next { s with txq := s.txq ++ [b] }) ∧
    (s.cfg.escapedMode = true → (b = 0x7E ∨ b = 0x7D ∨ b = 0x11 ∨ b = 0x13) →
      encode (.encPutEsc (b ^^^ 0x20)) = some [0x7D, b ^^^ 0x20] ∧
      exec (.encPutEsc (b ^^^ 0x20)) s = .next { s with txq := s.txq ++ [0x7D, b ^^^ 0x20] })

/-- `ENC.LEN_MSB` and `ENC.LEN_LSB` (R213): the two bytes of the frame length, most significant first, each byte-stuffed where it
is reserved; after them the sum and the index are 0. -/
def Obligations.LengthEmissionRows : Prop :=
  ∀ (s : State) (t : EncTemps), s.call = .serialize t →
    (t.stage = .lenMsb →
      encoderRow t s = .encLenMsb ∧
      exec .encLenMsb s =
        .next { s with
          txq := s.txq ++
            putBytes s.cfg.escapedMode (BitVec.ofNat 8 (s.out.frameLength.toNat / 256))
          call := .serialize { t with stage := .lenLsb } }) ∧
    (t.stage = .lenLsb →
      encoderRow t s = .encLenLsb ∧
      exec .encLenLsb s =
        .next { s with
          txq := s.txq ++
            putBytes s.cfg.escapedMode (BitVec.ofNat 8 (s.out.frameLength.toNat % 256))
          call := .serialize { stage := .data, sum := 0, i := 0 } })

/-- `ENC.DATA` (R214): the frame byte at `ENC.i`, read once, is emitted byte-stuffed and its unescaped value summed; a
never-written cell gives one byte both to the wire and to the sum. -/
def Obligations.DataEmissionRow : Prop :=
  ∀ (s : State) (t : EncTemps), s.call = .serialize t → t.stage = .data →
    t.i < s.out.frameLength.toNat →
    encoderRow t s = .encData ∧
    ∃ v n, (∀ b, s.out.peek t.i = some b → v = b ∧ n = s.draws) ∧
      exec .encData s =
        .next { s with
          txq := s.txq ++ putBytes s.cfg.escapedMode v
          call := .serialize { stage := .data, sum := t.sum + v, i := t.i + 1 }
          draws := n }

/-- `ENC.CSUM` (R215; that `OUT.checksum` is not written is decision D14) and `ENC.FLUSH` (R77, R216): the flush returns only with
`TXQ` empty and is held until then. That a held flush is a step which leaves the state as it was is the model's reading
(log 8, DEDUCED): the spec gives the flush an effect only with `TXQ` empty. -/
def Obligations.ChecksumEmissionAndFlushRows : Prop :=
  ∀ (s : State) (t : EncTemps), s.call = .serialize t →
    (t.stage = .data → s.out.frameLength.toNat ≤ t.i →
      encoderRow t s = .encCsum ∧
      exec .encCsum s =
        .next { s with
          txq := s.txq ++ putBytes s.cfg.escapedMode (0xFF - t.sum)
          call := .serialize { t with stage := .flush } }) ∧
    (t.stage = .flush → encoderRow t s = .encFlush) ∧
    (t.stage = .flush → s.txq = [] → exec .encFlush s = .next { s with call := .idle }) ∧
    (t.stage = .flush → s.txq ≠ [] → exec .encFlush s = .next s)

/-- An `ENC.SERIALIZE` with the transport at rest writes the message of `OUT`'s frame (R210, R214, R222): the frame bytes are the
cells' values, 0 at or above the capacity, some byte for a never-written cell, and the message verifies all the
same. Nothing of `OUT` changes (decision D14). -/
def Obligations.EncoderWritesTheMessage : Prop :=
  ∀ s : State, s.turns = [] → s.call = .serialize { stage := .start, sum := 0, i := 0 } →
    ∃ (f : List Byte) (n : Nat), f.length = s.out.frameLength.toNat ∧
      (∀ i, i < f.length → s.out.peek i = none ∨ f[i]? = s.out.peek i) ∧
      (s.out.frame = some f → n = s.draws) ∧
      runsTo (f.length + 4) s
        { s with
          txq := s.txq ++ messageBytes s.cfg.escapedMode f
          call := .serialize { stage := .flush, sum := frameSum f, i := f.length }
          draws := n }

/-- The flush is held while `TXQ` is not empty, and returns under `FLUSH_PROGRESS` (R77, R216; decision D19): where the schedule
sends as many bytes as `TXQ` holds, the call ends with every byte in `SENT`, in order. That a held flush is a step to
the same state, and that `FLUSH_PROGRESS` is a count of the schedule's `send` turns, is the model's reading (log 8,
DEDUCED). -/
def Obligations.FlushReturnsUnderProgress : Prop :=
  ∀ (s : State) (t : EncTemps), s.call = .serialize t → t.stage = .flush →
    (s.turns = [] → s.txq ≠ [] → step s = .next s) ∧
    (s.flushProgress → ∃ n u, runsTo n s u ∧ u.call = .idle ∧ u.txq = [] ∧ u.sent = s.sent ++ s.txq ∧
      u.out = s.out ∧ u.inp = s.inp ∧ u.dec = s.dec)

/-- The wire bytes of a message (R104, R120, R212): in escaped mode no START, XON or XOFF after the first byte; between
`LEN + 4` and `2 * LEN + 7` bytes, and exactly `LEN + 4` in unescaped mode (R217). -/
def Obligations.MessageBytesOnTheWire : Prop :=
  ∀ f : List Byte,
    (∃ rest, messageBytes true f = 0x7E :: rest ∧ ∀ b ∈ rest, b ≠ 0x7E ∧ b ≠ 0x11 ∧ b ≠ 0x13) ∧
    f.length + 4 ≤ (messageBytes true f).length ∧ (messageBytes true f).length ≤ 2 * f.length + 7 ∧
    (messageBytes false f).length = f.length + 4

/-- The round-trip law (R220, C5): for every frame within both limits, in either mode, the operations of `encode(f)` leave
the message in `TXQ` and the flush held; under `FLUSH_PROGRESS` (a schedule that sends as many bytes as the message has;
D19, log 8) `ENC.SERIALIZE` returns with exactly the message added to `SENT`, which is the result of `encode(f)` (R118);
and a `DEC.POLL` of `SENT` from construction completes with that frame. -/
def Obligations.RoundTrip : Prop :=
  ∀ (c : Config) (f : List Byte), f.length ≤ c.mOut → f.length + 3 ≤ c.mIn → f.length < 65536 →
    let encoding := { State.construct c with hostq := encodeOperations f }
    let message := messageBytes c.escapedMode f
    referenceDecode c message = some f ∧
    (∃ (n : Nat) (t : State), runsTo n encoding t ∧ t.txq = message ∧ t.out.frame = some f) ∧
    ∀ ts : List Turn, message.length ≤ ts.count .send →
      ∃ (n m : Nat) (t u : State),
        runsTo n { encoding with turns := List.replicate (f.length + 7) .unit ++ ts } t ∧
        t.call = .idle ∧ t.hostq = [] ∧ t.txq = [] ∧ t.sent = message ∧ t.out.frame = some f ∧
        runsTo m { State.construct c with hostq := [.decPoll], rxq := t.sent } u ∧
        u.call = .idle ∧ u.dec.complete = true ∧ u.inp.errorCode = .noError ∧ u.inp.frame = some f

/-! ### The field layer (R241 to R258; log 9) -/

/-- The AT Command's prepare operation (R241, R251, R252): it builds the frame `08 id c0 c1 payload` in `OUT` with the next frame
id; a payload past the ceiling records `MaxFrameLengthExceeded`. Nothing outside `OUT` changes but the frame id. -/
def Obligations.PrepareAtCommand : Prop :=
  ∀ (s : State) (a : AtCommandArgs), ∃ t, exec (.ftAtCommand (.prepare a)) s = .next t ∧
    t = { s with out := t.out, lastFrameId := t.lastFrameId, result := .none, draws := t.draws } ∧
    t.lastFrameId =
      (if s.cfg.ackEnabled then BitVec.ofNat 8 (s.lastFrameId.toNat % 255 + 1) else s.lastFrameId) ∧
    (s.cfg.mOut < 4 + a.payload.length → t.out.errorCode = .maxFrameLengthExceeded) ∧
    (4 + a.payload.length ≤ s.cfg.mOut → 4 + a.payload.length < 65536 →
      t.out.errorCode = .noError ∧ t.out.checksum = 0 ∧ t.draws = s.draws ∧
      t.out.frame = some (0x08 :: (if s.cfg.ackEnabled then t.lastFrameId else 0x00) ::
        a.command0 :: a.command1 :: a.payload))

/-- The Transmit Request's prepare operation (R243, R251, R252); an address that is not given is the broadcast address, the
default value of its type (R254; log 22), and the addresses are in the byte order of `FIELD_MSB_FIRST` (decision D21; log
21 where it is false). -/
def Obligations.PrepareTransmitRequest : Prop :=
  ∀ (s : State) (a : TransmitRequestArgs),
    let addr64 := a.addr64.getD broadcastAddr64
    let addr16 := a.addr16.getD broadcastAddr16
    ∃ t, exec (.ftTransmitRequest (.prepare a)) s = .next t ∧
    t = { s with out := t.out, lastFrameId := t.lastFrameId, result := .none, draws := t.draws } ∧
    t.lastFrameId =
      (if s.cfg.ackEnabled then BitVec.ofNat 8 (s.lastFrameId.toNat % 255 + 1) else s.lastFrameId) ∧
    (s.cfg.mOut < 14 + a.payload.length → t.out.errorCode = .maxFrameLengthExceeded) ∧
    (14 + a.payload.length ≤ s.cfg.mOut → 14 + a.payload.length < 65536 →
      t.out.errorCode = .noError ∧ t.out.checksum = 0 ∧ t.draws = s.draws ∧
      t.out.frame = some (0x10 :: (if s.cfg.ackEnabled then t.lastFrameId else 0x00) ::
        (fieldBytes64 s.cfg.fieldMsbFirst addr64.high addr64.low ++
          fieldBytes16 s.cfg.fieldMsbFirst addr16 ++ a.radius :: a.options :: a.payload)))

/-- The Remote AT Command's prepare operation (R242, R251, R252), its addresses as for the Transmit Request (R254, D21; log 21,
log 22). -/
def Obligations.PrepareRemoteAtCommand : Prop :=
  ∀ (s : State) (a : RemoteAtCommandArgs),
    let addr64 := a.addr64.getD broadcastAddr64
    let addr16 := a.addr16.getD broadcastAddr16
    ∃ t, exec (.ftRemoteAtCommand (.prepare a)) s = .next t ∧
    t = { s with out := t.out, lastFrameId := t.lastFrameId, result := .none, draws := t.draws } ∧
    t.lastFrameId =
      (if s.cfg.ackEnabled then BitVec.ofNat 8 (s.lastFrameId.toNat % 255 + 1) else s.lastFrameId) ∧
    (s.cfg.mOut < 15 + a.payload.length → t.out.errorCode = .maxFrameLengthExceeded) ∧
    (15 + a.payload.length ≤ s.cfg.mOut → 15 + a.payload.length < 65536 →
      t.out.errorCode = .noError ∧ t.out.checksum = 0 ∧ t.draws = s.draws ∧
      t.out.frame = some (0x17 :: (if s.cfg.ackEnabled then t.lastFrameId else 0x00) ::
        (fieldBytes64 s.cfg.fieldMsbFirst addr64.high addr64.low ++
          fieldBytes16 s.cfg.fieldMsbFirst addr16 ++
          a.options :: a.command0 :: a.command1 :: a.payload)))

/-- The field decoders of the two status types (R245, R248, R255): the fields at their indices; the addr16 of TX Status is some
value. On any frame of the right type, however short and with whatever never-written cells (R143, R258, U7, R73): a field
beyond the frame length reads 0 and `FrameLengthExceeded` is recorded, a never-written cell reads some byte, and nothing
else changes; no free value is drawn where every cell of the frame has a value. -/
def Obligations.ReadStatusFrames : Prop :=
  ∀ (s : State) (status id a0 a1 retries delivery discovery : Byte) (rest : List Byte),
    let modem (v : Byte) : FrameFields :=
      { frameType := 0x8A, frameId := none, addr64 := none, addr16 := none, command := none,
        status := some v, options := none, retries := none, deliveryStatus := none,
        discoveryStatus := none, payload := none }
    let tx (id : Byte) (v : Half) (retries delivery discovery : Byte) : FrameFields :=
      { frameType := 0x8B, frameId := some id, addr64 := none, addr16 := some v, command := none,
        status := none, options := none, retries := some retries, deliveryStatus := some delivery,
        discoveryStatus := some discovery, payload := none }
    (s.inp.frame = some (0x8A :: status :: rest) →
      exec (.ftModemStatus .read) s = .next { s with result := .fields (modem status) }) ∧
    (s.inp.frame = some [0x8A] →
      exec (.ftModemStatus .read) s =
        .next { s with
          inp := { s.inp with errorCode := .frameLengthExceeded }
          result := .fields (modem 0x00) }) ∧
    (s.inp.frame = some (0x8B :: id :: a0 :: a1 :: retries :: delivery :: discovery :: rest) →
      ∃ v, exec (.ftTxStatus .read) s =
        .next { s with result := .fields (tx id v retries delivery discovery) }) ∧
    (s.inp.frameLength ≠ 0 → s.inp.peek 0 = some 0x8A →
      ∃ (v : Byte) (n : Nat), s.inp.readsAs 1 v ∧ (s.inp.frame ≠ none → n = s.draws) ∧
        exec (.ftModemStatus .read) s =
          .next { s with inp := s.inp.policed 2, result := .fields (modem v), draws := n }) ∧
    (s.inp.frameLength ≠ 0 → s.inp.peek 0 = some 0x8B →
      ∃ (v : Half) (id' r d e : Byte) (n : Nat), s.inp.readsAs 1 id' ∧ s.inp.readsSpan 4 [r, d, e] ∧
        (s.inp.frame ≠ none → n = s.draws) ∧
        exec (.ftTxStatus .read) s =
          .next { s with inp := s.inp.policed 7, result := .fields (tx id' v r d e), draws := n })

/-- The field decoders of the types with a payload (R244, R246, R247, R250, R254, R259): the fields at their indices, the
addresses in the byte order of `FIELD_MSB_FIRST` (decision D21; log 21 where it is false), the payload the rest of the
frame. On any frame of the right type, however short and with whatever never-written cells (R143, R258, U7, R73): a field
byte beyond the frame length reads 0 and `FrameLengthExceeded` is recorded, a never-written cell reads some byte, a frame
shorter than the payload's offset has no payload (log 9), and nothing else changes; no free value is drawn where every
cell of the frame has a value. -/
def Obligations.ReadPayloadFrames : Prop :=
  ∀ (s : State) (id c0 c1 status options : Byte) (addr64 : Address64) (addr16 : Half)
    (payload : List Byte),
    let addresses (a : Address64) (h : Half) := fieldBytes64 s.cfg.fieldMsbFirst a.high a.low ++
      fieldBytes16 s.cfg.fieldMsbFirst h
    let response (id c0 c1 status : Byte) (payload : Option (List Byte)) : FrameFields :=
      { frameType := 0x88, frameId := some id, addr64 := none, addr16 := none,
        command := some (c0, c1), status := some status, options := none, retries := none,
        deliveryStatus := none, discoveryStatus := none, payload }
    let received (a : Address64) (h : Half) (options : Byte) (payload : Option (List Byte)) : FrameFields :=
      { frameType := 0x90, frameId := none, addr64 := some a, addr16 := some h,
        command := none, status := none, options := some options, retries := none,
        deliveryStatus := none, discoveryStatus := none, payload }
    (s.inp.frame = some (0x88 :: id :: c0 :: c1 :: status :: payload) →
      exec (.ftAtCommandResponse .read) s =
        .next { s with result := .fields (response id c0 c1 status (some payload)) }) ∧
    (s.inp.frame = some (0x97 :: id :: (addresses addr64 addr16 ++ c0 :: c1 :: status :: payload)) →
      exec (.ftRemoteAtCommandResponse .read) s =
        .next { s with
          result := .fields
            { response id c0 c1 status (some payload) with
              frameType := 0x97, addr64 := some addr64, addr16 := some addr16 } }) ∧
    (s.inp.frame = some (0x90 :: (addresses addr64 addr16 ++ options :: payload)) →
      exec (.ftRxReceived .read) s =
        .next { s with result := .fields (received addr64 addr16 options (some payload)) }) ∧
    (s.inp.frameLength ≠ 0 → s.inp.peek 0 = some 0x88 →
      ∃ (id' d0 d1 v : Byte) (p : Option (List Byte)) (n : Nat),
        s.inp.readsSpan 1 [id', d0, d1, v] ∧ s.inp.readsPayload 5 p ∧
        (s.inp.frame ≠ none → n = s.draws) ∧
        exec (.ftAtCommandResponse .read) s =
          .next { s with
            inp := s.inp.policed 5, result := .fields (response id' d0 d1 v p), draws := n }) ∧
    (s.inp.frameLength ≠ 0 → s.inp.peek 0 = some 0x97 →
      ∃ (id' d0 d1 v : Byte) (a : Address64) (h : Half) (p : Option (List Byte)) (n : Nat),
        s.inp.readsSpan 1 (id' :: (addresses a h ++ [d0, d1, v])) ∧ s.inp.readsPayload 15 p ∧
        (s.inp.frame ≠ none → n = s.draws) ∧
        exec (.ftRemoteAtCommandResponse .read) s =
          .next { s with
            inp := s.inp.policed 15
            result := .fields
              { response id' d0 d1 v p with frameType := 0x97, addr64 := some a, addr16 := some h }
            draws := n }) ∧
    (s.inp.frameLength ≠ 0 → s.inp.peek 0 = some 0x90 →
      ∃ (o : Byte) (a : Address64) (h : Half) (p : Option (List Byte)) (n : Nat),
        s.inp.readsSpan 1 (addresses a h ++ [o]) ∧ s.inp.readsPayload 12 p ∧
        (s.inp.frame ≠ none → n = s.draws) ∧
        exec (.ftRxReceived .read) s =
          .next { s with
            inp := s.inp.policed 12, result := .fields (received a h o p), draws := n })

/-- The type byte chooses the field decoder (R249): on a frame of another type none applies, and the type is the answer; on an
empty frame the read of the type records `FrameLengthExceeded` and gives 0 (R258; log 9). -/
def Obligations.ReadOtherType : Prop :=
  ∀ (s : State) (i : Instr) (code t : Byte) (rest : List Byte),
    (i, code) ∈ [(.ftAtCommandResponse .read, 0x88), (.ftModemStatus .read, 0x8A), (.ftTxStatus .read, 0x8B),
      (.ftRxReceived .read, 0x90), (.ftRemoteAtCommandResponse .read, 0x97)] →
    (s.inp.frame = some (t :: rest) → t ≠ code →
      exec i s = .next { s with result := .otherType t }) ∧
    (s.inp.frameLength = 0 →
      exec i s =
        .next { s with
          inp := { s.inp with errorCode := .frameLengthExceeded }
          result := .otherType 0x00 })

/-- The frame of the five field decoders, in every state, the type cell never written included (R143, R249, R258, R73): each
always answers, with its fields or with another type than its own; beside the result only `IN`'s code can change, to
`FrameLengthExceeded`, and the count of free values, which stays where every cell of the frame has a value. -/
def Obligations.ReadFormsFrame : Prop :=
  ∀ (s : State) (i : Instr) (code : Byte),
    (i, code) ∈ [(.ftAtCommandResponse .read, 0x88), (.ftModemStatus .read, 0x8A), (.ftTxStatus .read, 0x8B),
      (.ftRxReceived .read, 0x90), (.ftRemoteAtCommandResponse .read, 0x97)] →
    ∃ (t : State) (c : ErrorCode), exec i s = .next t ∧
      t = { s with inp := { s.inp with errorCode := c }, result := t.result, draws := t.draws } ∧
      (c = s.inp.errorCode ∨ c = .frameLengthExceeded) ∧
      (s.inp.frame ≠ none → t.draws = s.draws) ∧
      ((∃ f, t.result = .fields f ∧ f.frameType = code) ∨
        ∃ v, t.result = .otherType v ∧ v ≠ code ∧ s.inp.readsAs 0 v)
end

