-- ==== Sys2Proof/Laws/State.lean ====
section
/-! SUPPORT. The small lemmas of the state's updates: what each field is after each update, so that no
proof unfolds an update. -/

namespace Sys2Proof.Machine

/-! `State.setPkt` -/

@[simp] theorem setPkt_cfg (p : PacketId) (k : Packet) (s : State) : (s.setPkt p k).cfg = s.cfg := by cases p <;> rfl
@[simp] theorem setPkt_dec (p : PacketId) (k : Packet) (s : State) : (s.setPkt p k).dec = s.dec := by cases p <;> rfl
@[simp] theorem setPkt_flight (p : PacketId) (k : Packet) (s : State) : (s.setPkt p k).flight = s.flight := by cases p <;> rfl
@[simp] theorem setPkt_call (p : PacketId) (k : Packet) (s : State) : (s.setPkt p k).call = s.call := by cases p <;> rfl
@[simp] theorem setPkt_rxq (p : PacketId) (k : Packet) (s : State) : (s.setPkt p k).rxq = s.rxq := by cases p <;> rfl
@[simp] theorem setPkt_txq (p : PacketId) (k : Packet) (s : State) : (s.setPkt p k).txq = s.txq := by cases p <;> rfl
@[simp] theorem setPkt_sent (p : PacketId) (k : Packet) (s : State) : (s.setPkt p k).sent = s.sent := by cases p <;> rfl
@[simp] theorem setPkt_hostq (p : PacketId) (k : Packet) (s : State) : (s.setPkt p k).hostq = s.hostq := by cases p <;> rfl
@[simp] theorem setPkt_turns (p : PacketId) (k : Packet) (s : State) : (s.setPkt p k).turns = s.turns := by cases p <;> rfl
@[simp] theorem setPkt_result (p : PacketId) (k : Packet) (s : State) : (s.setPkt p k).result = s.result := by cases p <;> rfl
@[simp] theorem setPkt_lastFrameId (p : PacketId) (k : Packet) (s : State) : (s.setPkt p k).lastFrameId = s.lastFrameId := by cases p <;> rfl
@[simp] theorem setPkt_draws (p : PacketId) (k : Packet) (s : State) : (s.setPkt p k).draws = s.draws := by cases p <;> rfl
@[simp] theorem setPkt_inp_incoming (k : Packet) (s : State) : (s.setPkt .incoming k).inp = k := rfl
@[simp] theorem setPkt_inp_outgoing (k : Packet) (s : State) : (s.setPkt .outgoing k).inp = s.inp := rfl
@[simp] theorem setPkt_out_outgoing (k : Packet) (s : State) : (s.setPkt .outgoing k).out = k := rfl
@[simp] theorem setPkt_out_incoming (k : Packet) (s : State) : (s.setPkt .incoming k).out = s.out := rfl
@[simp] theorem setPkt_pkt (p : PacketId) (k : Packet) (s : State) : (s.setPkt p k).pkt p = k := by cases p <;> rfl
theorem setPkt_pkt_ne (p q : PacketId) (k : Packet) (s : State) (h : q ≠ p) : (s.setPkt p k).pkt q = s.pkt q := by
  cases p <;> cases q <;> simp_all [State.pkt, State.setPkt]
@[simp] theorem setPkt_maxLen (p q : PacketId) (k : Packet) (s : State) : (s.setPkt p k).maxLen q = s.maxLen q := by
  cases p <;> cases q <;> rfl
@[simp] theorem setPkt_setPkt (p : PacketId) (k l : Packet) (s : State) : (s.setPkt p k).setPkt p l = s.setPkt p l := by cases p <;> rfl
@[simp] theorem setPkt_self (p : PacketId) (s : State) : s.setPkt p (s.pkt p) = s := by cases p <;> rfl
@[simp] theorem pkt_incoming (s : State) : s.pkt .incoming = s.inp := rfl
@[simp] theorem pkt_outgoing (s : State) : s.pkt .outgoing = s.out := rfl
@[simp] theorem maxLen_incoming (s : State) : s.maxLen .incoming = s.cfg.mIn := rfl
@[simp] theorem maxLen_outgoing (s : State) : s.maxLen .outgoing = s.cfg.mOut := rfl

/-! `State.setIdx` -/

@[simp] theorem setIdx_cfg (n : Nat) (s : State) : (s.setIdx n).cfg = s.cfg := rfl
@[simp] theorem setIdx_inp (n : Nat) (s : State) : (s.setIdx n).inp = s.inp := rfl
@[simp] theorem setIdx_out (n : Nat) (s : State) : (s.setIdx n).out = s.out := rfl
@[simp] theorem setIdx_dec (n : Nat) (s : State) : (s.setIdx n).dec = { s.dec with idx := n } := rfl
@[simp] theorem setIdx_flight (n : Nat) (s : State) : (s.setIdx n).flight = s.flight := rfl
@[simp] theorem setIdx_call (n : Nat) (s : State) : (s.setIdx n).call = s.call := rfl
@[simp] theorem setIdx_rxq (n : Nat) (s : State) : (s.setIdx n).rxq = s.rxq := rfl
@[simp] theorem setIdx_txq (n : Nat) (s : State) : (s.setIdx n).txq = s.txq := rfl
@[simp] theorem setIdx_sent (n : Nat) (s : State) : (s.setIdx n).sent = s.sent := rfl
@[simp] theorem setIdx_hostq (n : Nat) (s : State) : (s.setIdx n).hostq = s.hostq := rfl
@[simp] theorem setIdx_turns (n : Nat) (s : State) : (s.setIdx n).turns = s.turns := rfl
@[simp] theorem setIdx_result (n : Nat) (s : State) : (s.setIdx n).result = s.result := rfl
@[simp] theorem setIdx_lastFrameId (n : Nat) (s : State) : (s.setIdx n).lastFrameId = s.lastFrameId := rfl
@[simp] theorem setIdx_draws (n : Nat) (s : State) : (s.setIdx n).draws = s.draws := rfl

/-! `State.setInLength` -/

@[simp] theorem setInLength_cfg (h : Half) (s : State) : (s.setInLength h).cfg = s.cfg := rfl
@[simp] theorem setInLength_inp (h : Half) (s : State) : (s.setInLength h).inp = { s.inp with frameLength := h } := rfl
@[simp] theorem setInLength_out (h : Half) (s : State) : (s.setInLength h).out = s.out := rfl
@[simp] theorem setInLength_dec (h : Half) (s : State) : (s.setInLength h).dec = s.dec := rfl
@[simp] theorem setInLength_flight (h : Half) (s : State) : (s.setInLength h).flight = s.flight := rfl
@[simp] theorem setInLength_call (h : Half) (s : State) : (s.setInLength h).call = s.call := rfl
@[simp] theorem setInLength_rxq (h : Half) (s : State) : (s.setInLength h).rxq = s.rxq := rfl
@[simp] theorem setInLength_txq (h : Half) (s : State) : (s.setInLength h).txq = s.txq := rfl
@[simp] theorem setInLength_sent (h : Half) (s : State) : (s.setInLength h).sent = s.sent := rfl
@[simp] theorem setInLength_hostq (h : Half) (s : State) : (s.setInLength h).hostq = s.hostq := rfl
@[simp] theorem setInLength_turns (h : Half) (s : State) : (s.setInLength h).turns = s.turns := rfl
@[simp] theorem setInLength_result (h : Half) (s : State) : (s.setInLength h).result = s.result := rfl
@[simp] theorem setInLength_lastFrameId (h : Half) (s : State) : (s.setInLength h).lastFrameId = s.lastFrameId := rfl
@[simp] theorem setInLength_draws (h : Half) (s : State) : (s.setInLength h).draws = s.draws := rfl

/-! `State.setEnc` -/

@[simp] theorem setEnc_cfg (t : EncTemps) (s : State) : (s.setEnc t).cfg = s.cfg := rfl
@[simp] theorem setEnc_inp (t : EncTemps) (s : State) : (s.setEnc t).inp = s.inp := rfl
@[simp] theorem setEnc_out (t : EncTemps) (s : State) : (s.setEnc t).out = s.out := rfl
@[simp] theorem setEnc_dec (t : EncTemps) (s : State) : (s.setEnc t).dec = s.dec := rfl
@[simp] theorem setEnc_flight (t : EncTemps) (s : State) : (s.setEnc t).flight = s.flight := rfl
@[simp] theorem setEnc_call (t : EncTemps) (s : State) : (s.setEnc t).call = .serialize t := rfl
@[simp] theorem setEnc_rxq (t : EncTemps) (s : State) : (s.setEnc t).rxq = s.rxq := rfl
@[simp] theorem setEnc_txq (t : EncTemps) (s : State) : (s.setEnc t).txq = s.txq := rfl
@[simp] theorem setEnc_sent (t : EncTemps) (s : State) : (s.setEnc t).sent = s.sent := rfl
@[simp] theorem setEnc_hostq (t : EncTemps) (s : State) : (s.setEnc t).hostq = s.hostq := rfl
@[simp] theorem setEnc_turns (t : EncTemps) (s : State) : (s.setEnc t).turns = s.turns := rfl
@[simp] theorem setEnc_result (t : EncTemps) (s : State) : (s.setEnc t).result = s.result := rfl
@[simp] theorem setEnc_lastFrameId (t : EncTemps) (s : State) : (s.setEnc t).lastFrameId = s.lastFrameId := rfl
@[simp] theorem setEnc_draws (t : EncTemps) (s : State) : (s.setEnc t).draws = s.draws := rfl

/-! `flyTo` -/

@[simp] theorem flyTo_cfg (b : Byte) (e : Bool) (o : ByteOrder) (s : State) : (flyTo b e o s).cfg = s.cfg := rfl
@[simp] theorem flyTo_inp (b : Byte) (e : Bool) (o : ByteOrder) (s : State) : (flyTo b e o s).inp = s.inp := rfl
@[simp] theorem flyTo_out (b : Byte) (e : Bool) (o : ByteOrder) (s : State) : (flyTo b e o s).out = s.out := rfl
@[simp] theorem flyTo_dec (b : Byte) (e : Bool) (o : ByteOrder) (s : State) : (flyTo b e o s).dec = s.dec := rfl
@[simp] theorem flyTo_flight (b : Byte) (e : Bool) (o : ByteOrder) (s : State) : (flyTo b e o s).flight = some { byte := b, fromEscape := e, order := o } := rfl
@[simp] theorem flyTo_call (b : Byte) (e : Bool) (o : ByteOrder) (s : State) : (flyTo b e o s).call = s.call := rfl
@[simp] theorem flyTo_rxq (b : Byte) (e : Bool) (o : ByteOrder) (s : State) : (flyTo b e o s).rxq = s.rxq := rfl
@[simp] theorem flyTo_txq (b : Byte) (e : Bool) (o : ByteOrder) (s : State) : (flyTo b e o s).txq = s.txq := rfl
@[simp] theorem flyTo_sent (b : Byte) (e : Bool) (o : ByteOrder) (s : State) : (flyTo b e o s).sent = s.sent := rfl
@[simp] theorem flyTo_hostq (b : Byte) (e : Bool) (o : ByteOrder) (s : State) : (flyTo b e o s).hostq = s.hostq := rfl
@[simp] theorem flyTo_turns (b : Byte) (e : Bool) (o : ByteOrder) (s : State) : (flyTo b e o s).turns = s.turns := rfl
@[simp] theorem flyTo_result (b : Byte) (e : Bool) (o : ByteOrder) (s : State) : (flyTo b e o s).result = s.result := rfl
@[simp] theorem flyTo_lastFrameId (b : Byte) (e : Bool) (o : ByteOrder) (s : State) : (flyTo b e o s).lastFrameId = s.lastFrameId := rfl
@[simp] theorem flyTo_draws (b : Byte) (e : Bool) (o : ByteOrder) (s : State) : (flyTo b e o s).draws = s.draws := rfl

/-! `landed` -/

@[simp] theorem landed_cfg (s : State) : (landed s).cfg = s.cfg := rfl
@[simp] theorem landed_inp (s : State) : (landed s).inp = s.inp := rfl
@[simp] theorem landed_out (s : State) : (landed s).out = s.out := rfl
@[simp] theorem landed_dec (s : State) : (landed s).dec = s.dec := rfl
@[simp] theorem landed_flight (s : State) : (landed s).flight = none := rfl
@[simp] theorem landed_call (s : State) : (landed s).call = s.call := rfl
@[simp] theorem landed_rxq (s : State) : (landed s).rxq = s.rxq := rfl
@[simp] theorem landed_txq (s : State) : (landed s).txq = s.txq := rfl
@[simp] theorem landed_sent (s : State) : (landed s).sent = s.sent := rfl
@[simp] theorem landed_hostq (s : State) : (landed s).hostq = s.hostq := rfl
@[simp] theorem landed_turns (s : State) : (landed s).turns = s.turns := rfl
@[simp] theorem landed_result (s : State) : (landed s).result = s.result := rfl
@[simp] theorem landed_lastFrameId (s : State) : (landed s).lastFrameId = s.lastFrameId := rfl
@[simp] theorem landed_draws (s : State) : (landed s).draws = s.draws := rfl

/-! `stopCall` -/

@[simp] theorem stopCall_cfg (s : State) : (stopCall s).cfg = s.cfg := rfl
@[simp] theorem stopCall_inp (s : State) : (stopCall s).inp = s.inp := rfl
@[simp] theorem stopCall_out (s : State) : (stopCall s).out = s.out := rfl
@[simp] theorem stopCall_dec (s : State) : (stopCall s).dec = s.dec := rfl
@[simp] theorem stopCall_flight (s : State) : (stopCall s).flight = none := rfl
@[simp] theorem stopCall_call (s : State) : (stopCall s).call = .idle := rfl
@[simp] theorem stopCall_rxq (s : State) : (stopCall s).rxq = s.rxq := rfl
@[simp] theorem stopCall_txq (s : State) : (stopCall s).txq = s.txq := rfl
@[simp] theorem stopCall_sent (s : State) : (stopCall s).sent = s.sent := rfl
@[simp] theorem stopCall_hostq (s : State) : (stopCall s).hostq = s.hostq := rfl
@[simp] theorem stopCall_turns (s : State) : (stopCall s).turns = s.turns := rfl
@[simp] theorem stopCall_result (s : State) : (stopCall s).result = s.result := rfl
@[simp] theorem stopCall_lastFrameId (s : State) : (stopCall s).lastFrameId = s.lastFrameId := rfl
@[simp] theorem stopCall_draws (s : State) : (stopCall s).draws = s.draws := rfl

/-! `answer` -/

@[simp] theorem answer_cfg (r : HostResult) (s : State) : (answer r s).cfg = s.cfg := rfl
@[simp] theorem answer_inp (r : HostResult) (s : State) : (answer r s).inp = s.inp := rfl
@[simp] theorem answer_out (r : HostResult) (s : State) : (answer r s).out = s.out := rfl
@[simp] theorem answer_dec (r : HostResult) (s : State) : (answer r s).dec = s.dec := rfl
@[simp] theorem answer_flight (r : HostResult) (s : State) : (answer r s).flight = s.flight := rfl
@[simp] theorem answer_call (r : HostResult) (s : State) : (answer r s).call = s.call := rfl
@[simp] theorem answer_rxq (r : HostResult) (s : State) : (answer r s).rxq = s.rxq := rfl
@[simp] theorem answer_txq (r : HostResult) (s : State) : (answer r s).txq = s.txq := rfl
@[simp] theorem answer_sent (r : HostResult) (s : State) : (answer r s).sent = s.sent := rfl
@[simp] theorem answer_hostq (r : HostResult) (s : State) : (answer r s).hostq = s.hostq := rfl
@[simp] theorem answer_turns (r : HostResult) (s : State) : (answer r s).turns = s.turns := rfl
@[simp] theorem answer_result (r : HostResult) (s : State) : (answer r s).result = r := rfl
@[simp] theorem answer_lastFrameId (r : HostResult) (s : State) : (answer r s).lastFrameId = s.lastFrameId := rfl
@[simp] theorem answer_draws (r : HostResult) (s : State) : (answer r s).draws = s.draws := rfl

/-! `writeByte` -/

@[simp] theorem writeByte_cfg (b : Byte) (s : State) : (writeByte b s).cfg = s.cfg := rfl
@[simp] theorem writeByte_inp (b : Byte) (s : State) : (writeByte b s).inp = s.inp := rfl
@[simp] theorem writeByte_out (b : Byte) (s : State) : (writeByte b s).out = s.out := rfl
@[simp] theorem writeByte_dec (b : Byte) (s : State) : (writeByte b s).dec = s.dec := rfl
@[simp] theorem writeByte_flight (b : Byte) (s : State) : (writeByte b s).flight = s.flight := rfl
@[simp] theorem writeByte_call (b : Byte) (s : State) : (writeByte b s).call = s.call := rfl
@[simp] theorem writeByte_rxq (b : Byte) (s : State) : (writeByte b s).rxq = s.rxq := rfl
@[simp] theorem writeByte_txq (b : Byte) (s : State) : (writeByte b s).txq = s.txq ++ [b] := rfl
@[simp] theorem writeByte_sent (b : Byte) (s : State) : (writeByte b s).sent = s.sent := rfl
@[simp] theorem writeByte_hostq (b : Byte) (s : State) : (writeByte b s).hostq = s.hostq := rfl
@[simp] theorem writeByte_turns (b : Byte) (s : State) : (writeByte b s).turns = s.turns := rfl
@[simp] theorem writeByte_result (b : Byte) (s : State) : (writeByte b s).result = s.result := rfl
@[simp] theorem writeByte_lastFrameId (b : Byte) (s : State) : (writeByte b s).lastFrameId = s.lastFrameId := rfl
@[simp] theorem writeByte_draws (b : Byte) (s : State) : (writeByte b s).draws = s.draws := rfl

/-! `arriveByte` -/

@[simp] theorem arriveByte_cfg (b : Byte) (s : State) : (arriveByte b s).cfg = s.cfg := rfl
@[simp] theorem arriveByte_inp (b : Byte) (s : State) : (arriveByte b s).inp = s.inp := rfl
@[simp] theorem arriveByte_out (b : Byte) (s : State) : (arriveByte b s).out = s.out := rfl
@[simp] theorem arriveByte_dec (b : Byte) (s : State) : (arriveByte b s).dec = s.dec := rfl
@[simp] theorem arriveByte_flight (b : Byte) (s : State) : (arriveByte b s).flight = s.flight := rfl
@[simp] theorem arriveByte_call (b : Byte) (s : State) : (arriveByte b s).call = s.call := rfl
@[simp] theorem arriveByte_rxq (b : Byte) (s : State) : (arriveByte b s).rxq = s.rxq ++ [b] := rfl
@[simp] theorem arriveByte_txq (b : Byte) (s : State) : (arriveByte b s).txq = s.txq := rfl
@[simp] theorem arriveByte_sent (b : Byte) (s : State) : (arriveByte b s).sent = s.sent := rfl
@[simp] theorem arriveByte_hostq (b : Byte) (s : State) : (arriveByte b s).hostq = s.hostq := rfl
@[simp] theorem arriveByte_turns (b : Byte) (s : State) : (arriveByte b s).turns = s.turns := rfl
@[simp] theorem arriveByte_result (b : Byte) (s : State) : (arriveByte b s).result = s.result := rfl
@[simp] theorem arriveByte_lastFrameId (b : Byte) (s : State) : (arriveByte b s).lastFrameId = s.lastFrameId := rfl
@[simp] theorem arriveByte_draws (b : Byte) (s : State) : (arriveByte b s).draws = s.draws := rfl

/-! `record` -/

@[simp] theorem record_cfg (p : PacketId) (c : ErrorCode) (s : State) : (record p c s).cfg = s.cfg := by cases p <;> rfl
@[simp] theorem record_dec (p : PacketId) (c : ErrorCode) (s : State) : (record p c s).dec = s.dec := by cases p <;> rfl
@[simp] theorem record_flight (p : PacketId) (c : ErrorCode) (s : State) : (record p c s).flight = s.flight := by cases p <;> rfl
@[simp] theorem record_call (p : PacketId) (c : ErrorCode) (s : State) : (record p c s).call = s.call := by cases p <;> rfl
@[simp] theorem record_rxq (p : PacketId) (c : ErrorCode) (s : State) : (record p c s).rxq = s.rxq := by cases p <;> rfl
@[simp] theorem record_txq (p : PacketId) (c : ErrorCode) (s : State) : (record p c s).txq = s.txq := by cases p <;> rfl
@[simp] theorem record_sent (p : PacketId) (c : ErrorCode) (s : State) : (record p c s).sent = s.sent := by cases p <;> rfl
@[simp] theorem record_hostq (p : PacketId) (c : ErrorCode) (s : State) : (record p c s).hostq = s.hostq := by cases p <;> rfl
@[simp] theorem record_turns (p : PacketId) (c : ErrorCode) (s : State) : (record p c s).turns = s.turns := by cases p <;> rfl
@[simp] theorem record_result (p : PacketId) (c : ErrorCode) (s : State) : (record p c s).result = s.result := by cases p <;> rfl
@[simp] theorem record_lastFrameId (p : PacketId) (c : ErrorCode) (s : State) : (record p c s).lastFrameId = s.lastFrameId := by cases p <;> rfl
@[simp] theorem record_draws (p : PacketId) (c : ErrorCode) (s : State) : (record p c s).draws = s.draws := by cases p <;> rfl
@[simp] theorem record_pkt (p : PacketId) (c : ErrorCode) (s : State) :
    (record p c s).pkt p = { s.pkt p with errorCode := c } := by cases p <;> rfl
@[simp] theorem record_incoming_inp (c : ErrorCode) (s : State) : (record .incoming c s).inp = { s.inp with errorCode := c } := rfl
@[simp] theorem record_incoming_out (c : ErrorCode) (s : State) : (record .incoming c s).out = s.out := rfl
@[simp] theorem record_outgoing_inp (c : ErrorCode) (s : State) : (record .outgoing c s).inp = s.inp := rfl
@[simp] theorem record_outgoing_out (c : ErrorCode) (s : State) : (record .outgoing c s).out = { s.out with errorCode := c } := rfl

/-! `decoderError` -/

@[simp] theorem decoderError_cfg (c : ErrorCode) (s : State) : (decoderError c s).cfg = s.cfg := rfl
@[simp] theorem decoderError_inp (c : ErrorCode) (s : State) : (decoderError c s).inp = { s.inp with errorCode := c } := rfl
@[simp] theorem decoderError_out (c : ErrorCode) (s : State) : (decoderError c s).out = s.out := rfl
@[simp] theorem decoderError_dec (c : ErrorCode) (s : State) : (decoderError c s).dec = s.dec := rfl
@[simp] theorem decoderError_flight (c : ErrorCode) (s : State) : (decoderError c s).flight = none := rfl
@[simp] theorem decoderError_call (c : ErrorCode) (s : State) : (decoderError c s).call = .idle := rfl
@[simp] theorem decoderError_rxq (c : ErrorCode) (s : State) : (decoderError c s).rxq = s.rxq := rfl
@[simp] theorem decoderError_txq (c : ErrorCode) (s : State) : (decoderError c s).txq = s.txq := rfl
@[simp] theorem decoderError_sent (c : ErrorCode) (s : State) : (decoderError c s).sent = s.sent := rfl
@[simp] theorem decoderError_hostq (c : ErrorCode) (s : State) : (decoderError c s).hostq = s.hostq := rfl
@[simp] theorem decoderError_turns (c : ErrorCode) (s : State) : (decoderError c s).turns = s.turns := rfl
@[simp] theorem decoderError_result (c : ErrorCode) (s : State) : (decoderError c s).result = s.result := rfl
@[simp] theorem decoderError_lastFrameId (c : ErrorCode) (s : State) : (decoderError c s).lastFrameId = s.lastFrameId := rfl
@[simp] theorem decoderError_draws (c : ErrorCode) (s : State) : (decoderError c s).draws = s.draws := rfl

/-! `packetReset` -/

@[simp] theorem packetReset_cfg (p : PacketId) (s : State) : (packetReset p s).cfg = s.cfg := by cases p <;> rfl
@[simp] theorem packetReset_dec (p : PacketId) (s : State) : (packetReset p s).dec = s.dec := by cases p <;> rfl
@[simp] theorem packetReset_flight (p : PacketId) (s : State) : (packetReset p s).flight = s.flight := by cases p <;> rfl
@[simp] theorem packetReset_call (p : PacketId) (s : State) : (packetReset p s).call = s.call := by cases p <;> rfl
@[simp] theorem packetReset_rxq (p : PacketId) (s : State) : (packetReset p s).rxq = s.rxq := by cases p <;> rfl
@[simp] theorem packetReset_txq (p : PacketId) (s : State) : (packetReset p s).txq = s.txq := by cases p <;> rfl
@[simp] theorem packetReset_sent (p : PacketId) (s : State) : (packetReset p s).sent = s.sent := by cases p <;> rfl
@[simp] theorem packetReset_hostq (p : PacketId) (s : State) : (packetReset p s).hostq = s.hostq := by cases p <;> rfl
@[simp] theorem packetReset_turns (p : PacketId) (s : State) : (packetReset p s).turns = s.turns := by cases p <;> rfl
@[simp] theorem packetReset_result (p : PacketId) (s : State) : (packetReset p s).result = s.result := by cases p <;> rfl
@[simp] theorem packetReset_lastFrameId (p : PacketId) (s : State) : (packetReset p s).lastFrameId = s.lastFrameId := by cases p <;> rfl
@[simp] theorem packetReset_draws (p : PacketId) (s : State) : (packetReset p s).draws = s.draws := by cases p <;> rfl
@[simp] theorem packetReset_pkt (p : PacketId) (s : State) :
    (packetReset p s).pkt p = { s.pkt p with frameLength := 0, checksum := 0, errorCode := .noError } := by cases p <;> rfl

/-! `restartAt` -/

@[simp] theorem restartAt_cfg (n : Nat) (s : State) : (restartAt n s).cfg = s.cfg := rfl
@[simp] theorem restartAt_inp (n : Nat) (s : State) : (restartAt n s).inp = { s.inp with frameLength := 0, checksum := 0, errorCode := .noError } := rfl
@[simp] theorem restartAt_out (n : Nat) (s : State) : (restartAt n s).out = s.out := rfl
@[simp] theorem restartAt_dec (n : Nat) (s : State) : (restartAt n s).dec = { idx := n, escaping := false, csum := 0, complete := false } := rfl
@[simp] theorem restartAt_flight (n : Nat) (s : State) : (restartAt n s).flight = s.flight := rfl
@[simp] theorem restartAt_call (n : Nat) (s : State) : (restartAt n s).call = s.call := rfl
@[simp] theorem restartAt_rxq (n : Nat) (s : State) : (restartAt n s).rxq = s.rxq := rfl
@[simp] theorem restartAt_txq (n : Nat) (s : State) : (restartAt n s).txq = s.txq := rfl
@[simp] theorem restartAt_sent (n : Nat) (s : State) : (restartAt n s).sent = s.sent := rfl
@[simp] theorem restartAt_hostq (n : Nat) (s : State) : (restartAt n s).hostq = s.hostq := rfl
@[simp] theorem restartAt_turns (n : Nat) (s : State) : (restartAt n s).turns = s.turns := rfl
@[simp] theorem restartAt_result (n : Nat) (s : State) : (restartAt n s).result = s.result := rfl
@[simp] theorem restartAt_lastFrameId (n : Nat) (s : State) : (restartAt n s).lastFrameId = s.lastFrameId := rfl
@[simp] theorem restartAt_draws (n : Nat) (s : State) : (restartAt n s).draws = s.draws := rfl

end Sys2Proof.Machine
end

