-- ==== Sys2Proof/Laws/Ops.lean ====
section
/-! SUPPORT. One lemma per shared operation that says all that it can do, for proofs to cite instead of
unfolding the operation. -/

namespace Sys2Proof.Machine

/-! ### Reads -/

/-- `BUF.GET` gives the written byte, 0 at or above the capacity, or a free byte with one more draw. -/
theorem bufGetOp_cases (p : PacketId) (i : Nat) (s : State) :
    (∃ b, (s.pkt p).peek i = some b ∧ bufGetOp p i s = (b, s)) ∨
      ((s.pkt p).peek i = none ∧ i < (s.pkt p).cap ∧ (s.pkt p).buf.read i = none ∧
        bufGetOp p i s = (Config.freeByte s.draws, { s with draws := s.draws + 1 })) := by
  unfold bufGetOp Packet.peek
  by_cases h : i < (s.pkt p).cap
  · simp only [h, if_true]
    cases hr : (s.pkt p).buf.read i with
    | some b => exact .inl ⟨b, rfl, rfl⟩
    | none => exact .inr ⟨rfl, trivial, rfl, rfl⟩
  · simp only [h, if_false]
    exact .inl ⟨0, rfl, rfl⟩

/-- A cell that `peek` sees is read without a draw. -/
theorem bufGetOp_peek {p : PacketId} {i : Nat} {s : State} {b : Byte}
    (h : (s.pkt p).peek i = some b) : bufGetOp p i s = (b, s) := by
  rcases bufGetOp_cases p i s with ⟨c, hc, he⟩ | ⟨hn, _⟩
  · rw [h] at hc; cases hc; exact he
  · rw [h] at hn; cases hn

/-- `BUF.GET` changes at most the number of draws. -/
theorem bufGetOp_frame (p : PacketId) (i : Nat) (s : State) :
    ∃ n, (bufGetOp p i s).2 = { s with draws := n } := by
  rcases bufGetOp_cases p i s with ⟨b, _, h⟩ | ⟨_, _, _, h⟩
  · exact ⟨s.draws, by rw [h]⟩
  · exact ⟨s.draws + 1, by rw [h]⟩

/-- `PKT.GET` below the frame length is `BUF.GET`; at or above it, code 5 is recorded and 0 returned. -/
theorem pktGetOp_cases (p : PacketId) (i : Nat) (s : State) :
    (i < (s.pkt p).frameLength.toNat ∧ pktGetOp p i s = bufGetOp p i s) ∨
      ((s.pkt p).frameLength.toNat ≤ i ∧
        pktGetOp p i s = (0x00, record p .frameLengthExceeded s)) := by
  unfold pktGetOp
  by_cases h : i < (s.pkt p).frameLength.toNat
  · simp [h]
  · simp only [h, if_false]
    exact .inr ⟨Nat.le_of_not_lt h, trivial⟩

/-! ### Policed reads of the frame in `IN` (R143, R258) -/

@[simp] theorem policed_buf (k : Packet) (n : Nat) : (k.policed n).buf = k.buf := rfl
@[simp] theorem policed_cap (k : Packet) (n : Nat) : (k.policed n).cap = k.cap := rfl
@[simp] theorem policed_frameLength (k : Packet) (n : Nat) : (k.policed n).frameLength = k.frameLength := rfl
@[simp] theorem policed_checksum (k : Packet) (n : Nat) : (k.policed n).checksum = k.checksum := rfl

/-- Recording a code changes no value that a policed read may give. -/
theorem readsAs_errorCode {k : Packet} (c : ErrorCode) (i : Nat) (v : Byte) :
    Packet.readsAs { k with errorCode := c } i v ↔ k.readsAs i v := Iff.rfl

/-- Policed reads up to `m` and then up to `n` are policed reads up to the larger. -/
theorem policed_policed (k : Packet) (m n : Nat) : (k.policed m).policed n = k.policed (max m n) := by
  unfold Packet.policed
  congr 1
  dsimp only
  split_ifs <;> first | rfl | omega

/-- A policed read of `IN` gives a value that `readsAs` allows, records code 5 exactly where the index lies beyond the
frame, and changes nothing else but the number of draws, which stays where the cell has a value. -/
theorem pktGetOp_incoming (i : Nat) (s : State) :
    s.inp.readsAs i (pktGetOp .incoming i s).1 ∧ ∃ d,
      (i < s.inp.frameLength.toNat → s.inp.peek i = none ∨ d = s.draws) ∧
      (s.inp.frameLength.toNat ≤ i → d = s.draws) ∧
      (pktGetOp .incoming i s).2 = { s with inp := s.inp.policed (i + 1), draws := d } := by
  unfold Packet.readsAs Packet.policed
  rcases pktGetOp_cases .incoming i s with ⟨h, he⟩ | ⟨h, he⟩
  · replace h : i < s.inp.frameLength.toNat := h
    have hn : ¬ s.inp.frameLength.toNat < i + 1 := by omega
    simp only [h, hn, if_true, if_false]
    rcases bufGetOp_cases .incoming i s with ⟨b, hb, hg⟩ | ⟨hb, _, _, hg⟩ <;> rw [he, hg]
    · exact ⟨.inr hb, s.draws, fun _ => .inr rfl, fun _ => rfl, rfl⟩
    · exact ⟨.inl hb, s.draws + 1, fun _ => .inl hb, fun hc => absurd hc (by omega), rfl⟩
  · replace h : s.inp.frameLength.toNat ≤ i := h
    have hn : ¬ i < s.inp.frameLength.toNat := by omega
    have hl : s.inp.frameLength.toNat < i + 1 := by omega
    simp only [hn, hl, if_true, if_false]
    rw [he]
    exact ⟨rfl, s.draws, fun hc => hc.elim, fun _ => rfl, rfl⟩

/-! ### The operands of the prepare forms (R254) -/

@[simp] theorem addr64Operand_eq (a : Option Address64) : addr64Operand a = a.getD broadcastAddr64 := by
  cases a <;> rfl

@[simp] theorem addr16Operand_eq (a : Option Half) : addr16Operand a = a.getD broadcastAddr16 := by
  cases a <;> rfl

/-- The two address fields have ten bytes in either byte order. -/
@[simp] theorem addressBytes_length (msbFirst : Bool) (a : Option Address64) (h : Option Half) :
    (addressBytes msbFirst a h).length = 10 := by
  cases msbFirst <;> rfl

/-! ### Sums -/

/-- The sum of cells changes at most the number of draws. -/
theorem sumCells_frame (p : PacketId) (i n : Nat) (acc : Byte) (s : State) :
    ∃ d, (sumCells p i n acc s).2 = { s with draws := d } := by
  induction n generalizing i acc s with
  | zero => exact ⟨s.draws, rfl⟩
  | succ n ih =>
    obtain ⟨d, hd⟩ := bufGetOp_frame p i s
    obtain ⟨e, he⟩ := ih (i + 1) (acc + (bufGetOp p i s).1) (bufGetOp p i s).2
    refine ⟨e, ?_⟩
    simp only [sumCells]
    rw [he, hd]

/-- `PKT.CALC_CHECKSUM` changes at most the number of draws. -/
theorem calcChecksumOp_frame (p : PacketId) (s : State) :
    ∃ d, (calcChecksumOp p s).2 = { s with draws := d } := by
  unfold calcChecksumOp
  exact sumCells_frame ..

/-! ### Writes -/

/-- `fitLength` gives the number where it fits 16 bits, and else a free value with one more draw. -/
theorem fitLength_cases (n : Nat) (s : State) :
    (n < 65536 ∧ fitLength n s = (BitVec.ofNat 16 n, s)) ∨
      (65536 ≤ n ∧ fitLength n s = (Config.freeLength s.draws, { s with draws := s.draws + 1 })) := by
  unfold fitLength
  by_cases h : n < 65536
  · simp [h]
  · simp only [h, if_false]
    exact .inr ⟨Nat.le_of_not_lt h, trivial⟩

/-- `PKT.SET` at or above the ceiling records code 4; below it, the cell is stored, the capacity grown,
the length extended. -/
theorem pktSetOp_cases (p : PacketId) (i : Nat) (v : Byte) (s : State) :
    (s.maxLen p ≤ i ∧ pktSetOp p i v s = record p .maxFrameLengthExceeded s) ∨
      (i < s.maxLen p ∧ i + 1 < 65536 ∧
        pktSetOp p i v s = s.setPkt p { (s.pkt p).stored (s.maxLen p) i v with
          frameLength := BitVec.ofNat 16 (max (s.pkt p).frameLength.toNat (i + 1)) }) ∨
      (i < s.maxLen p ∧ 65536 ≤ i + 1 ∧
        pktSetOp p i v s = { s.setPkt p { (s.pkt p).stored (s.maxLen p) i v with
          frameLength := Config.freeLength s.draws } with draws := s.draws + 1 }) := by
  unfold pktSetOp bufSetOp
  by_cases h : s.maxLen p ≤ i
  · simp [h]
  · simp only [h, if_false, extendLength, setPkt_pkt]
    have hl : (s.pkt p).frameLength.toNat < 65536 := (s.pkt p).frameLength.isLt
    rcases fitLength_cases
        (max ((s.pkt p).stored (s.maxLen p) i v).frameLength.toNat (i + 1))
        (s.setPkt p ((s.pkt p).stored (s.maxLen p) i v)) with ⟨hn, he⟩ | ⟨hn, he⟩
    · refine .inr (.inl ⟨Nat.lt_of_not_le h, ?_, ?_⟩)
      · simp only [Packet.stored] at hn; omega
      · rw [he]; simp [Packet.stored]
    · refine .inr (.inr ⟨Nat.lt_of_not_le h, ?_, ?_⟩)
      · simp only [Packet.stored] at hn; omega
      · rw [he]
        cases p <;> rfl

/-- A store keeps the invariant of a packet. -/
theorem stored_inv {k : Packet} {maxLen i : Nat} (v : Byte) (h : k.inv maxLen) (hi : i < maxLen) :
    (k.stored maxLen i v).inv maxLen := by
  obtain ⟨hw, hc, hm⟩ := h
  refine ⟨memory_write_wf i v hw, fun c hcell => ?_, ?_⟩
  · rcases memory_mem_write hcell with rfl | hcell
    · simp only [Packet.stored, grownCapacity, slack]; split <;> omega
    · have := hc c hcell
      simp only [Packet.stored, grownCapacity, slack]; split <;> omega
  · simp only [Packet.stored, grownCapacity, slack]; split <;> omega

/-- A store never lowers the capacity. -/
theorem stored_cap {k : Packet} {maxLen i : Nat} (v : Byte) (hi : i < maxLen) :
    k.cap ≤ (k.stored maxLen i v).cap := by
  simp only [Packet.stored, grownCapacity, slack]; split <;> omega

/-- The invariant of a packet does not read its registers. -/
theorem packet_inv_registers {k : Packet} {maxLen : Nat} (h : k.inv maxLen) (f : Half) (c : Byte)
    (e : ErrorCode) :
    Packet.inv maxLen { k with frameLength := f, checksum := c, errorCode := e } := h

/-- `BUF.ENSURE` raises the capacity to `size`, a growth within the ceiling, or changes nothing. -/
theorem bufEnsureOp_cases (p : PacketId) (size : Nat) (s : State) :
    ((s.pkt p).cap < size ∧ size ≤ s.maxLen p ∧
        bufEnsureOp p size s = s.setPkt p { s.pkt p with cap := size }) ∨
      (¬ ((s.pkt p).cap < size ∧ size ≤ s.maxLen p) ∧ bufEnsureOp p size s = s) := by
  unfold bufEnsureOp
  by_cases h : (s.pkt p).cap < size ∧ size ≤ s.maxLen p
  · exact .inl ⟨h.1, h.2, by simp [h]⟩
  · exact .inr ⟨h, by simp [h]⟩

/-- `BUF.SET` fails at or above the ceiling and stores below it. -/
theorem bufSetOp_cases (p : PacketId) (i : Nat) (v : Byte) (s : State) :
    (s.maxLen p ≤ i ∧ bufSetOp p i v s = none) ∨
      (i < s.maxLen p ∧
        bufSetOp p i v s = some (s.setPkt p ((s.pkt p).stored (s.maxLen p) i v))) := by
  unfold bufSetOp
  by_cases h : s.maxLen p ≤ i
  · exact .inl ⟨h, by simp [h]⟩
  · exact .inr ⟨Nat.lt_of_not_le h, by simp [h]⟩

/-- `PKT.SET` changes at most its packet and the number of draws. -/
theorem pktSetOp_frame (p : PacketId) (i : Nat) (v : Byte) (s : State) :
    ∃ k d, pktSetOp p i v s = { s.setPkt p k with draws := d } := by
  refine ⟨(pktSetOp p i v s).pkt p, (pktSetOp p i v s).draws, ?_⟩
  rcases pktSetOp_cases p i v s with ⟨_, h⟩ | ⟨_, _, h⟩ | ⟨_, _, h⟩ <;> rw [h] <;> cases p <;> rfl

/-- Consecutive `PKT.SET`s change at most their packet and the number of draws. -/
theorem pktSetEach_frame (p : PacketId) (bytes : List Byte) (i : Nat) (s : State) :
    ∃ k d, pktSetEach p i bytes s = { s.setPkt p k with draws := d } := by
  induction bytes generalizing i s with
  | nil => exact ⟨s.pkt p, s.draws, by rw [setPkt_self]; rfl⟩
  | cons b rest ih =>
    obtain ⟨k, d, hk⟩ := pktSetOp_frame p i b s
    obtain ⟨l, e, hl⟩ := ih (i + 1) (pktSetOp p i b s)
    refine ⟨l, e, ?_⟩
    rw [pktSetEach, hl, hk]
    cases p <;> rfl

/-- `PKT.SETN` refuses the whole range past the ceiling, and else is the `PKT.SET`s of its first `n` bytes. -/
theorem pktSetnOp_cases (p : PacketId) (first : Nat) (bytes : List Byte) (n : Nat) (s : State) :
    (s.maxLen p < first + n ∧
        pktSetnOp p first bytes n s = record p .maxFrameLengthExceeded s) ∨
      (first + n ≤ s.maxLen p ∧
        pktSetnOp p first bytes n s = pktSetEach p first (bytes.take n) s) := by
  unfold pktSetnOp
  by_cases h : s.maxLen p < first + n
  · exact .inl ⟨h, by simp [h]⟩
  · exact .inr ⟨Nat.le_of_not_lt h, by simp [h]⟩

/-- `nextFrameId()` gives the next of 1 to 255 and keeps it, or 0 and keeps nothing (R252). -/
theorem nextFrameIdOp_cases (s : State) :
    (s.cfg.ackEnabled = true ∧ nextFrameIdOp s =
        (BitVec.ofNat 8 (s.lastFrameId.toNat % 255 + 1),
          { s with lastFrameId := BitVec.ofNat 8 (s.lastFrameId.toNat % 255 + 1) })) ∨
      (s.cfg.ackEnabled = false ∧ nextFrameIdOp s = (0x00, s)) := by
  unfold nextFrameIdOp
  cases h : s.cfg.ackEnabled
  · exact .inr ⟨rfl, by simp⟩
  · exact .inl ⟨rfl, by simp⟩

/-! ### The frame stores at reset and under every write -/

/-- The frame stores of the state after construction are in canonical form. -/
theorem construct_memory_wf (c : Config) :
    (State.construct c).inp.buf.wf ∧ (State.construct c).out.buf.wf :=
  ⟨List.Pairwise.nil, List.Pairwise.nil⟩

/-- A store keeps the canonical form of a packet's cells. -/
theorem stored_wf {k : Packet} (maxLen i : Nat) (v : Byte) (h : k.buf.wf) :
    (k.stored maxLen i v).buf.wf := memory_write_wf i v h

/-- `PKT.SET` keeps the canonical form of the packet's cells. -/
theorem pktSetOp_wf {p : PacketId} {s : State} (i : Nat) (v : Byte) (h : (s.pkt p).buf.wf) :
    ((pktSetOp p i v s).pkt p).buf.wf := by
  rcases pktSetOp_cases p i v s with ⟨_, he⟩ | ⟨_, _, he⟩ | ⟨_, _, he⟩
  · rw [he]; cases p <;> exact h
  · rw [he, setPkt_pkt]; exact memory_write_wf i v h
  · rw [he]; cases p <;> exact memory_write_wf i v h

/-- Consecutive `PKT.SET`s keep the canonical form of the packet's cells. -/
theorem pktSetEach_wf {p : PacketId} (bytes : List Byte) (i : Nat) {s : State}
    (h : (s.pkt p).buf.wf) : ((pktSetEach p i bytes s).pkt p).buf.wf := by
  induction bytes generalizing i s with
  | nil => exact h
  | cons b rest ih => exact ih (i + 1) (pktSetOp_wf i b h)

/-! ### The encoder's put -/

/-- The escape inserter appends the bytes of `put(b)` to `TXQ` and changes nothing else (R212). -/
theorem encPut_eq (b : Byte) (s : State) :
    encPut b s = { s with txq := s.txq ++ putBytes s.cfg.escapedMode b } := by
  by_cases h : s.stuffs b = true
  · have h' : (s.cfg.escapedMode && isReserved b) = true := h
    simp [encPut, encPutEsc, h, putBytes, h', writeByte, escapeByte, escapeXor]
  · have h' : ¬ (s.cfg.escapedMode && isReserved b) = true := h
    simp [encPut, encPutRaw, h, putBytes, h', writeByte]

/-! ### The rows of a byte step -/

/-- The rows that `selectRow` gives are the rows of group D that `applyRow` knows. -/
def Instr.isByteRow : Instr → Bool
  | .decUnesc _ | .decEscInline | .decEscSuspend | .decErrStart | .decCsum _ | .decSof
  | .decErrNostart _ | .decLenMsb _ | .decLenLsb _ | .decErrOverlen _ | .decCkOk _ | .decCkFail _
  | .decStore _ => true
  | _ => false

/-- The meaning of a row of a byte step is its effect. -/
theorem exec_byteRow (i : Instr) (s : State) (h : Instr.isByteRow i = true) :
    exec i s = .next (applyRow i s) := by
  cases i <;> first | rfl | cases h

theorem dispatchRow_isByteRow (b : Byte) (s : State) : Instr.isByteRow (dispatchRow b s) = true := by
  unfold dispatchRow
  split_ifs <;> rfl

theorem sumRow_isByteRow (b : Byte) (s : State) : Instr.isByteRow (sumRow b s) = true := by
  unfold sumRow
  split_ifs
  · rfl
  · exact dispatchRow_isByteRow b s

/-- `selectRow` always gives a row of a byte step. -/
theorem selectRow_isByteRow (f : Flight) (s : State) : Instr.isByteRow (selectRow f s) = true := by
  unfold selectRow
  cases f.order
  · dsimp only
    split_ifs <;> first | rfl | exact sumRow_isByteRow _ _
  · exact sumRow_isByteRow _ _
  · exact dispatchRow_isByteRow _ _

end Sys2Proof.Machine
end

