-- ==== Sys2Proof/Laws/PerInstr.lean ====
section
/-! SUPPORT. The per-instruction family: a host operation has no binary encoding (R116, D2). -/

/-- A host operation has no binary encoding, and what has one is no host operation (R116, D2). -/
def Sys2Proof.Laws.HostEncoding.Statement (i : Sys2Proof.Instr) : Prop :=
  i.isHostOp = true → Sys2Proof.encode i = none

namespace Sys2Proof.Laws

open Sys2Proof

theorem HostEncoding.start :
    HostEncoding.Statement (.start) := nofun

theorem HostEncoding.escape :
    HostEncoding.Statement (.escape) := nofun

theorem HostEncoding.xon :
    HostEncoding.Statement (.xon) := nofun

theorem HostEncoding.xoff :
    HostEncoding.Statement (.xoff) := nofun

theorem HostEncoding.data (v : Byte) :
    HostEncoding.Statement (.data v) := nofun

theorem HostEncoding.escStart :
    HostEncoding.Statement (.escStart) := nofun

theorem HostEncoding.escEscape :
    HostEncoding.Statement (.escEscape) := nofun

theorem HostEncoding.escXon :
    HostEncoding.Statement (.escXon) := nofun

theorem HostEncoding.escXoff :
    HostEncoding.Statement (.escXoff) := nofun

theorem HostEncoding.escGeneric (x : Byte) :
    HostEncoding.Statement (.escGeneric x) := nofun

theorem HostEncoding.decEntryRestart :
    HostEncoding.Statement (.decEntryRestart) := nofun

theorem HostEncoding.decEntryResume1 :
    HostEncoding.Statement (.decEntryResume1) := nofun

theorem HostEncoding.decEntryContinue :
    HostEncoding.Statement (.decEntryContinue) := nofun

theorem HostEncoding.decFetch :
    HostEncoding.Statement (.decFetch) := nofun

theorem HostEncoding.decUnesc (r : Byte) :
    HostEncoding.Statement (.decUnesc r) := nofun

theorem HostEncoding.decEscInline :
    HostEncoding.Statement (.decEscInline) := nofun

theorem HostEncoding.decEscSuspend :
    HostEncoding.Statement (.decEscSuspend) := nofun

theorem HostEncoding.decErrStart :
    HostEncoding.Statement (.decErrStart) := nofun

theorem HostEncoding.decCsum (b : Byte) :
    HostEncoding.Statement (.decCsum b) := nofun

theorem HostEncoding.decSof :
    HostEncoding.Statement (.decSof) := nofun

theorem HostEncoding.decErrNostart (b : Byte) :
    HostEncoding.Statement (.decErrNostart b) := nofun

theorem HostEncoding.decLenMsb (b : Byte) :
    HostEncoding.Statement (.decLenMsb b) := nofun

theorem HostEncoding.decLenLsb (b : Byte) :
    HostEncoding.Statement (.decLenLsb b) := nofun

theorem HostEncoding.decErrOverlen (b : Byte) :
    HostEncoding.Statement (.decErrOverlen b) := nofun

theorem HostEncoding.decCkOk (b : Byte) :
    HostEncoding.Statement (.decCkOk b) := nofun

theorem HostEncoding.decCkFail (b : Byte) :
    HostEncoding.Statement (.decCkFail b) := nofun

theorem HostEncoding.decStore (b : Byte) :
    HostEncoding.Statement (.decStore b) := nofun

theorem HostEncoding.encStart :
    HostEncoding.Statement (.encStart) := nofun

theorem HostEncoding.encPutRaw (b : Byte) :
    HostEncoding.Statement (.encPutRaw b) := nofun

theorem HostEncoding.encPutEsc (e : Byte) :
    HostEncoding.Statement (.encPutEsc e) := nofun

theorem HostEncoding.encLenMsb :
    HostEncoding.Statement (.encLenMsb) := nofun

theorem HostEncoding.encLenLsb :
    HostEncoding.Statement (.encLenLsb) := nofun

theorem HostEncoding.encData :
    HostEncoding.Statement (.encData) := nofun

theorem HostEncoding.encCsum :
    HostEncoding.Statement (.encCsum) := nofun

theorem HostEncoding.encFlush :
    HostEncoding.Statement (.encFlush) := nofun

theorem HostEncoding.bufEnsure (p : PacketId) (size : Nat) :
    HostEncoding.Statement (.bufEnsure p size) :=
  fun _ => rfl

theorem HostEncoding.bufGet (p : PacketId) (i : Nat) :
    HostEncoding.Statement (.bufGet p i) :=
  fun _ => rfl

theorem HostEncoding.bufSet (p : PacketId) (i : Nat) (v : Byte) :
    HostEncoding.Statement (.bufSet p i v) :=
  fun _ => rfl

theorem HostEncoding.pktGet (p : PacketId) (i : Nat) :
    HostEncoding.Statement (.pktGet p i) :=
  fun _ => rfl

theorem HostEncoding.pktSet (p : PacketId) (i : Nat) (v : Byte) :
    HostEncoding.Statement (.pktSet p i v) :=
  fun _ => rfl

theorem HostEncoding.pktSetn (p : PacketId) (first : Nat) (bytes : List Byte) (n : Nat) :
    HostEncoding.Statement (.pktSetn p first bytes n) :=
  fun _ => rfl

theorem HostEncoding.pktLenMsb (p : PacketId) :
    HostEncoding.Statement (.pktLenMsb p) :=
  fun _ => rfl

theorem HostEncoding.pktLenLsb (p : PacketId) :
    HostEncoding.Statement (.pktLenLsb p) :=
  fun _ => rfl

theorem HostEncoding.pktSetLenMsb (p : PacketId) (v : Byte) :
    HostEncoding.Statement (.pktSetLenMsb p v) :=
  fun _ => rfl

theorem HostEncoding.pktSetLenLsb (p : PacketId) (v : Byte) :
    HostEncoding.Statement (.pktSetLenLsb p v) :=
  fun _ => rfl

theorem HostEncoding.pktCalcChecksum (p : PacketId) :
    HostEncoding.Statement (.pktCalcChecksum p) :=
  fun _ => rfl

theorem HostEncoding.pktReset (p : PacketId) :
    HostEncoding.Statement (.pktReset p) :=
  fun _ => rfl

theorem HostEncoding.pktIsError (p : PacketId) :
    HostEncoding.Statement (.pktIsError p) :=
  fun _ => rfl

theorem HostEncoding.pktErrorCode (p : PacketId) :
    HostEncoding.Statement (.pktErrorCode p) :=
  fun _ => rfl

theorem HostEncoding.pktFrameLength (p : PacketId) :
    HostEncoding.Statement (.pktFrameLength p) :=
  fun _ => rfl

theorem HostEncoding.pktChecksum (p : PacketId) :
    HostEncoding.Statement (.pktChecksum p) :=
  fun _ => rfl

theorem HostEncoding.decPoll :
    HostEncoding.Statement (.decPoll) :=
  fun _ => rfl

theorem HostEncoding.decIsComplete :
    HostEncoding.Statement (.decIsComplete) :=
  fun _ => rfl

theorem HostEncoding.decReset :
    HostEncoding.Statement (.decReset) :=
  fun _ => rfl

theorem HostEncoding.encSerialize :
    HostEncoding.Statement (.encSerialize) :=
  fun _ => rfl

theorem HostEncoding.ftAtCommand (f : OutboundForm AtCommandArgs) :
    HostEncoding.Statement (.ftAtCommand f) := by
  cases f with
  | wire => exact nofun
  | prepare _ => exact fun _ => rfl

theorem HostEncoding.ftAtCommandQueued :
    HostEncoding.Statement (.ftAtCommandQueued) := nofun

theorem HostEncoding.ftTransmitRequest (f : OutboundForm TransmitRequestArgs) :
    HostEncoding.Statement (.ftTransmitRequest f) := by
  cases f with
  | wire => exact nofun
  | prepare _ => exact fun _ => rfl

theorem HostEncoding.ftExplicitAddressing :
    HostEncoding.Statement (.ftExplicitAddressing) := nofun

theorem HostEncoding.ftRemoteAtCommand (f : OutboundForm RemoteAtCommandArgs) :
    HostEncoding.Statement (.ftRemoteAtCommand f) := by
  cases f with
  | wire => exact nofun
  | prepare _ => exact fun _ => rfl

theorem HostEncoding.ftAtCommandResponse (f : InboundForm) :
    HostEncoding.Statement (.ftAtCommandResponse f) := by
  cases f with
  | wire => exact nofun
  | read => exact fun _ => rfl

theorem HostEncoding.ftModemStatus (f : InboundForm) :
    HostEncoding.Statement (.ftModemStatus f) := by
  cases f with
  | wire => exact nofun
  | read => exact fun _ => rfl

theorem HostEncoding.ftTxStatus (f : InboundForm) :
    HostEncoding.Statement (.ftTxStatus f) := by
  cases f with
  | wire => exact nofun
  | read => exact fun _ => rfl

theorem HostEncoding.ftRxReceived (f : InboundForm) :
    HostEncoding.Statement (.ftRxReceived f) := by
  cases f with
  | wire => exact nofun
  | read => exact fun _ => rfl

theorem HostEncoding.ftExplicitRx :
    HostEncoding.Statement (.ftExplicitRx) := nofun

theorem HostEncoding.ftIoRx :
    HostEncoding.Statement (.ftIoRx) := nofun

theorem HostEncoding.ftNodeId :
    HostEncoding.Statement (.ftNodeId) := nofun

theorem HostEncoding.ftRemoteAtCommandResponse (f : InboundForm) :
    HostEncoding.Statement (.ftRemoteAtCommandResponse f) := by
  cases f with
  | wire => exact nofun
  | read => exact fun _ => rfl

end Sys2Proof.Laws
end

