-- ==== Sys2Proof/Tests/Slice0.lean ====
section
/-! SUPPORT. The tests: the WellFormed smoke tests, the decoding of every constructor from words written out from the
spec's tables, single steps from the worked values of spec/95_test_vectors.md, and for every statement of
Obligations.lean with hypotheses a state and operands that meet them. -/

namespace Sys2Proof.Tests

open Machine

/-! ### WellFormed: an ill-formed term for each check -/

theorem test_wellFormed_data_refuses_reserved :
    (Instr.data 0x7E).wellFormed = false ∧ (Instr.data 0x7D).wellFormed = false ∧
    (Instr.data 0x11).wellFormed = false ∧ (Instr.data 0x13).wellFormed = false ∧
    (Instr.data 0x41).wellFormed = true := by decide

theorem test_wellFormed_escGeneric_refuses_canonical :
    (Instr.escGeneric 0x5E).wellFormed = false ∧ (Instr.escGeneric 0x5D).wellFormed = false ∧
    (Instr.escGeneric 0x31).wellFormed = false ∧ (Instr.escGeneric 0x33).wellFormed = false ∧
    (Instr.escGeneric 0x7E).wellFormed = true := by decide

theorem test_wellFormed_decErrNostart_refuses_start :
    (Instr.decErrNostart 0x7E).wellFormed = false ∧ (Instr.decErrNostart 0x7D).wellFormed = true := by
  decide

theorem test_wellFormed_encPutEsc_refuses_unreserved :
    (Instr.encPutEsc 0x41).wellFormed = false ∧ (Instr.encPutEsc 0x5E).wellFormed = true := by decide

theorem test_wellFormed_pktSetn_refuses_short_list :
    (Instr.pktSetn .outgoing 0 [0x08] 2).wellFormed = false ∧
    (Instr.pktSetn .outgoing 0 [0x08] 1).wellFormed = true := by decide

theorem test_isHostOp_refuses_steps_and_wire_bytes :
    (Instr.decCkOk 0x6F).isHostOp = false ∧ Instr.encFlush.isHostOp = false ∧
    Instr.start.isHostOp = false ∧ (Instr.ftModemStatus .wire).isHostOp = false ∧
    (Instr.ftModemStatus .read).isHostOp = true ∧ Instr.decPoll.isHostOp = true := by decide

/-! ### Decoding, from the tables of R104, R105, R110 and R114 -/

/-- Group W, bit patterns of R104. -/
theorem test_decode_byteClasses :
    decode .inFrame [0b01111110] = .ok (.start, []) ∧
    decode .inFrame [0b01111101] = .ok (.escape, []) ∧
    decode .inFrame [0b00010001] = .ok (.xon, []) ∧
    decode .inFrame [0b00010011] = .ok (.xoff, []) ∧
    decode .inFrame [0b01000001] = .ok (.data 0x41, []) := ⟨rfl, rfl, rfl, rfl, rfl⟩

/-- Group X, the pairs of R105 and the generic pair of R110. -/
theorem test_decode_escapeSequences :
    decode .inFrame [0b01111101, 0b01011110] = .ok (.escStart, []) ∧
    decode .inFrame [0b01111101, 0b01011101] = .ok (.escEscape, []) ∧
    decode .inFrame [0b01111101, 0b00110001] = .ok (.escXon, []) ∧
    decode .inFrame [0b01111101, 0b00110011] = .ok (.escXoff, []) ∧
    decode .inFrame [0b01111101, 0b01000001] = .ok (.escGeneric 0x41, []) :=
  ⟨rfl, rfl, rfl, rfl, rfl⟩

/-- Group T, the codes of R114 at the position of the frame-type byte. -/
theorem test_decode_frameTypes :
    decode .atType [0b00001000] = .ok (.ftAtCommand .wire, []) ∧
    decode .atType [0b00001001] = .ok (.ftAtCommandQueued, []) ∧
    decode .atType [0b00010000] = .ok (.ftTransmitRequest .wire, []) ∧
    decode .atType [0b00010001] = .ok (.ftExplicitAddressing, []) ∧
    decode .atType [0b00010111] = .ok (.ftRemoteAtCommand .wire, []) ∧
    decode .atType [0b10001000] = .ok (.ftAtCommandResponse .wire, []) ∧
    decode .atType [0b10001010] = .ok (.ftModemStatus .wire, []) ∧
    decode .atType [0b10001011] = .ok (.ftTxStatus .wire, []) ∧
    decode .atType [0b10010000] = .ok (.ftRxReceived .wire, []) ∧
    decode .atType [0b10010001] = .ok (.ftExplicitRx, []) ∧
    decode .atType [0b10010010] = .ok (.ftIoRx, []) ∧
    decode .atType [0b10010101] = .ok (.ftNodeId, []) ∧
    decode .atType [0b10010111] = .ok (.ftRemoteAtCommandResponse .wire, []) :=
  ⟨rfl, rfl, rfl, rfl, rfl, rfl, rfl, rfl, rfl, rfl, rfl, rfl, rfl⟩

/-- Outside escaped mode `7D` is a unit by itself (R108, R124); at the type position it is no code. -/
theorem test_decode_without_escapes :
    decode { escapes := false, typeByte := true } [0x7D, 0x5E] = .ok (.escape, [0x5E]) ∧
    decode .atType [] = .error .noByte ∧
    decodeTableWord 8 0x100 = none ∧ decodeTableWord 12 0 = none := ⟨rfl, rfl, rfl, rfl⟩

/-! ### States for the tests -/

/-- In mid-frame: `7E 00 03 8A` received (frame length 3, one byte stored). -/
def midFrame : State :=
  { State.reset with
    inp := { buf := [(0, 0x8A)], cap := 10, frameLength := 3, checksum := 0, errorCode := .noError }
    dec := { idx := 4, escaping := false, csum := 0x8A, complete := false }
    call := .drain }

/-- In mid-frame in unescaped mode. -/
def unescaped : State := { midFrame with cfg := { Config.default with escapedMode := false } }

/-- At the checksum position of the Modem Status frame `8A 06` (L1-2b), the checksum byte summed. -/
def atCheck (csum : Byte) : State :=
  { midFrame with
    inp := { midFrame.inp with buf := [(0, 0x8A), (1, 0x06)], frameLength := 2 }
    dec := { idx := 5, escaping := false, csum := csum, complete := false } }

/-- The cursor elsewhere. -/
def atIdx (n : Nat) : State := midFrame.setIdx n

/-- The frame `08 01 4E 49` in `OUT` (L1-1), an `ENC.SERIALIZE` at a stage. -/
def serializing (stage : EncStage) (sum : Byte) (i : Nat) : State :=
  { State.reset with
    out := { buf := [(0, 0x08), (1, 0x01), (2, 0x4E), (3, 0x49)], cap := 10, frameLength := 4,
             checksum := 0, errorCode := .noError }
    call := .serialize { stage, sum, i } }

/-- A complete frame in `IN`. -/
def holding (frame : List Byte) : State :=
  { State.reset with
    inp := { buf := (List.range frame.length).zip frame, cap := 50,
             frameLength := BitVec.ofNat 16 frame.length, checksum := 0, errorCode := .noError } }

/-- A frame of a length in `IN` of which the type byte alone has been written. -/
def holdingFirst (code : Byte) (len : Half) : State :=
  { holding [code] with inp := { (holding [code]).inp with frameLength := len } }

/-- The next state of an outcome. -/
def next? : Host.Outcome State Fault Refusal → Option State
  | .next s => some s
  | _ => none

/-- The byte in flight at an order. -/
def flying (s : State) (b : Byte) (o : ByteOrder) : State :=
  { s with flight := some { byte := b, fromEscape := false, order := o } }

/-! ### The rows of groups D and E, from the conditions of R109, R171, R212 and the steps of R210 -/

theorem test_entryRows :
    entryRow State.reset = .decEntryContinue ∧
    entryRow { State.reset with dec := { State.reset.dec with complete := true } } = .decEntryRestart ∧
    entryRow (record .incoming .unexpectedPacketStart State.reset) = .decEntryResume1 := by decide

theorem test_selectRow_escapes :
    selectRow ⟨0x5E, false, .escape⟩ { midFrame with dec := { midFrame.dec with escaping := true } } =
      .decUnesc 0x5E ∧
    selectRow ⟨0x7D, false, .escape⟩ { midFrame with rxq := [0x5E] } = .decEscInline ∧
    selectRow ⟨0x7D, false, .escape⟩ midFrame = .decEscSuspend ∧
    selectRow ⟨0x7E, false, .escape⟩ midFrame = .decErrStart ∧
    selectRow ⟨0x41, false, .escape⟩ midFrame = .decCsum 0x41 := by decide

theorem test_selectRow_dispatch :
    selectRow ⟨0x7E, false, .dispatch⟩ (atIdx 0) = .decSof ∧
    selectRow ⟨0x7D, false, .dispatch⟩ (atIdx 0) = .decErrNostart 0x7D ∧
    selectRow ⟨0x00, false, .dispatch⟩ (atIdx 1) = .decLenMsb 0x00 ∧
    selectRow ⟨0x02, false, .dispatch⟩ (atIdx 2) = .decLenLsb 0x02 ∧
    selectRow ⟨0xAA, false, .dispatch⟩ (atIdx 51) = .decErrOverlen 0xAA ∧
    selectRow ⟨0x6F, false, .dispatch⟩ (atCheck 0xFF) = .decCkOk 0x6F ∧
    selectRow ⟨0x55, false, .dispatch⟩ (atCheck 0xE5) = .decCkFail 0x55 ∧
    selectRow ⟨0x06, false, .dispatch⟩ midFrame = .decStore 0x06 := by decide

theorem test_decFetch_is_the_empty_drain :
    nextInstr false midFrame = .run .decFetch midFrame := by decide

/-- The byte a row of group D takes, the bytes a row of group E emits: the table's `encoding` column. -/
theorem test_encode_rows :
    encode .decEscInline = some [0b01111101] ∧ encode .decEscSuspend = some [0b01111101] ∧
    encode .decErrStart = some [0b01111110] ∧ encode .decSof = some [0b01111110] ∧
    encode (.decCkOk 0x6F) = some [0x6F] ∧ encode .encStart = some [0b01111110] ∧
    encode (.encPutRaw 0x41) = some [0x41] ∧ encode (.encPutEsc 0x5E) = some [0b01111101, 0x5E] ∧
    encode .encData = none ∧ encode .decPoll = none := by decide

theorem test_encoderRows :
    encoderRow ⟨.start, 0, 0⟩ (serializing .start 0 0) = .encStart ∧
    encoderRow ⟨.lenMsb, 0, 0⟩ (serializing .lenMsb 0 0) = .encLenMsb ∧
    encoderRow ⟨.lenLsb, 0, 0⟩ (serializing .lenLsb 0 0) = .encLenLsb ∧
    encoderRow ⟨.data, 0, 3⟩ (serializing .data 0 3) = .encData ∧
    encoderRow ⟨.data, 0, 4⟩ (serializing .data 0 4) = .encCsum ∧
    encoderRow ⟨.flush, 0, 4⟩ (serializing .flush 0 4) = .encFlush := by decide

/-! ### Single steps on worked values -/

/-- V-B1 steps 1, 5 and 7: growth with slack, growth clipped to `M`, the refused write. -/
theorem test_pktSet_growth :
    (next? (exec (.pktSet .outgoing 0 0xA0) State.reset)).map (fun t => (t.out.cap, t.out.frameLength)) =
      some (10, 1) ∧
    (next? (exec (.pktSet .outgoing 45 0xAD) State.reset)).map (fun t => (t.out.cap, t.out.frameLength)) =
      some (50, 46) ∧
    (next? (exec (.pktSet .outgoing 50 0xA2) State.reset)).map (fun t => (t.out.cap, t.out.errorCode)) =
      some (0, .maxFrameLengthExceeded) := by decide

/-- V-P3: the accepted range, and the range past the ceiling. -/
theorem test_pktSetn_range :
    (next? (exec (.pktSetn .outgoing 4 [0xAA, 0xBB] 2) State.reset)).map
      (fun t => (t.out.buf, t.out.cap, t.out.frameLength)) = some ([(4, 0xAA), (5, 0xBB)], 14, 6) ∧
    (next? (exec (.pktSetn .outgoing 49 [0xAA, 0xBB] 2) State.reset)).map
      (fun t => (t.out.buf, t.out.errorCode)) = some ([], .maxFrameLengthExceeded) := by decide

/-- V-P1: the length halves. -/
theorem test_length_halves :
    withMsb 0x12 0x0004 = 0x1204 ∧ withLsb 0x34 0x1204 = 0x1234 ∧ halfMsb 0x1234 = 0x12 ∧
    halfLsb 0x1234 = 0x34 := by decide

/-- V-P2: the checksum of `8A 06`. -/
theorem test_calcChecksum :
    (next? (exec (.pktCalcChecksum .incoming) (holding [0x8A, 0x06]))).map (·.result) =
      some (.byte 0x6F) := by decide

/-- L1-2b and L1-2a: the right and the wrong checksum byte of the Modem Status frame. -/
theorem test_checksum_byte :
    (next? (exec (.data 0x6F) (atCheck 0x90))).map (fun t => (t.dec.complete, t.inp.checksum, t.dec.csum)) =
      some (true, 0x6F, 0xFF) ∧
    (next? (exec (.data 0x55) (atCheck 0x90))).map (fun t => (t.inp.errorCode, t.dec.csum)) =
      some (.checksumFailure, 0xE5) := by decide

/-- R174 and R110: the pairs `7D 5E` and `7D 41`. -/
theorem test_escape_pairs :
    (next? (exec .escStart midFrame)).map (fun t => (t.inp.buf, t.dec.idx)) =
      some ([(0, 0x8A), (1, 0x7E)], 5) ∧
    (next? (exec (.escGeneric 0x41) midFrame)).map (fun t => (t.inp.buf, t.dec.csum)) =
      some ([(0, 0x8A), (1, 0x61)], 0xEB) := by decide

/-- V-X1: a raw START at the checksum position is code 2 and is not summed. -/
theorem test_start_at_checksum :
    (next? (exec .start (atCheck 0x90))).map (fun t => (t.inp.errorCode, t.dec.csum)) =
      some (.unexpectedPacketStart, 0x90) := by decide

/-- R213 example: the length 17 is sent as `00 7D 31`. -/
theorem test_length_emission :
    let s := serializing .lenLsb 0 0
    (next? (exec .encLenLsb { s with out := { s.out with frameLength := 17 } })).map (·.txq) =
      some [0x7D, 0x31] := by decide

/-- R215 examples: `A0` gives `5F`, `81` gives `7D 5E`. -/
theorem test_checksum_emission :
    (next? (exec .encCsum (serializing .data 0xA0 4))).map (·.txq) = some [0x5F] ∧
    (next? (exec .encCsum (serializing .data 0x81 4))).map (·.txq) = some [0x7D, 0x5E] := by decide

/-- R241 example and V-S1: the AT Command `NI` with the first frame id. -/
theorem test_prepare_atCommand :
    (next? (exec (.ftAtCommand (.prepare { command0 := 0x4E, command1 := 0x49, payload := [] }))
      State.reset)).map (fun t => t.out.frame) = some (some [0x08, 0x01, 0x4E, 0x49]) := by decide

/-- R254: the addresses of a Transmit Request that gives none are the broadcast addresses, most significant byte first. -/
theorem test_prepare_default_addresses :
    (next? (exec (.ftTransmitRequest
      (.prepare { addr64 := none, addr16 := none, radius := 0, options := 0, payload := [] })) State.reset)).map
      (fun t => (t.out.peek 2, t.out.peek 11)) =
      some (some (Config.broadcastHigh.extractLsb' 24 8), some (Config.broadcast16.extractLsb' 0 8)) := by
  rfl

/-- R258 and U7: a TX Status frame of 6 bytes has no discovery status: code 5, and the field reads 0. -/
theorem test_read_short_txStatus :
    (next? (exec (.ftTxStatus .read) (holding [0x8B, 1, 2, 3, 4, 5]))).map
      (fun t => (t.inp.errorCode, match t.result with
        | .fields f => (f.deliveryStatus, f.discoveryStatus)
        | _ => (none, none))) =
      some (.frameLengthExceeded, some 5, some 0) := by decide

/-- R248 example. -/
theorem test_read_modemStatus :
    let fields : FrameFields :=
      { frameType := 0x8A, frameId := none, addr64 := none, addr16 := none, command := none,
        status := some 0x06, options := none, retries := none, deliveryStatus := none,
        discoveryStatus := none, payload := none }
    (next? (exec (.ftModemStatus .read) (holding [0x8A, 0x06]))).map (·.result) =
      some (.fields fields) := by decide

/-- A table word is fetched and run as the first instruction after reset: an escape sequence, a frame-type code. -/
theorem test_withFetchWord :
    nextInstr false (State.reset.withFetchWord 16 0x7D5E) =
      .run .escStart { State.reset.withFetchWord 16 0x7D5E with rxq := [] } ∧
    nextInstr false (State.reset.withFetchWord 8 0x8A) =
      .run (.ftModemStatus .wire) { State.reset.withFetchWord 8 0x8A with rxq := [] } := by decide

/-! ### Witnesses: for each statement with hypotheses, states and operands that meet them, clause by clause -/

theorem witness_WireUnitDecodeEncode :
    (Instr.escGeneric 0x7E).isWireUnit ∧ (Instr.escGeneric 0x7E).wellFormed ∧
    (Instr.escGeneric 0x7E = .escape → [0x00] = ([] : List Byte)) ∧
    Instr.escape.isWireUnit ∧ Instr.escape.wellFormed := by decide

theorem witness_EveryByteMeetsItsRow :
    (flying midFrame 0x7D .escape).flight = some ⟨0x7D, false, .escape⟩ ∧
    (flying midFrame 0x7D .sum).flight = some ⟨0x7D, false, .sum⟩ ∧
    (flying midFrame 0x7D .dispatch).flight = some ⟨0x7D, false, .dispatch⟩ := by decide

theorem witness_StepRunsDecodedUnit :
    let s := { midFrame with rxq := [0x7D, 0x5E, 0x01] }
    let t := { s with turns := [.unit] }
    s.call = .drain ∧ s.flight = none ∧ s.turns = [] ∧
    decode s.wireContext s.rxq = .ok (.escStart, [0x01]) ∧
    t.call = .drain ∧ t.flight = none ∧ t.turns = .unit :: [] ∧
    decode t.wireContext t.rxq = .ok (.escStart, [0x01]) :=
  ⟨rfl, rfl, rfl, rfl, rfl, rfl, rfl, rfl⟩

theorem witness_StepRunsSelectedRow :
    let entering := { State.reset with call := .entry }
    let atRow := { midFrame with turns := [.row, .unit] }
    (entering.turns = [] ∧ entering.call = .entry) ∧
    ((flying midFrame 0x06 .sum).turns = [] ∧ (flying midFrame 0x06 .sum).call = .drain ∧
      (flying midFrame 0x06 .sum).flight = some ⟨0x06, false, .sum⟩) ∧
    (midFrame.turns = [] ∧ midFrame.call = .drain ∧ midFrame.flight = none ∧ midFrame.rxq = []) ∧
    ((serializing .data 0 1).turns = [] ∧ (serializing .data 0 1).call = .serialize ⟨.data, 0, 1⟩) ∧
    (atRow.turns = .row :: [.unit] ∧ atRow.call = .drain ∧ atRow.flight = none) := by decide

theorem witness_StepRunsHostOperation :
    let issuing := { State.reset with hostq := [.decPoll] }
    let wrong := { State.reset with hostq := [.decSof] }
    (State.reset.turns = [] ∧ State.reset.call = .idle ∧ State.reset.hostq = []) ∧
    (issuing.turns = [] ∧ issuing.call = .idle ∧ issuing.hostq = .decPoll :: [] ∧
      Instr.decPoll.isHostOp = true) ∧
    (wrong.turns = [] ∧ wrong.call = .idle ∧ wrong.hostq = .decSof :: [] ∧
      Instr.decSof.isHostOp = false) := by decide

theorem witness_TransportTurns :
    { State.reset with turns := [.arrive 0x7E] }.turns = .arrive 0x7E :: [] ∧
    { State.reset with turns := [.send], txq := [0x7E] }.turns = .send :: [] ∧
    { State.reset with turns := [.send], txq := [0x7E] }.txq = 0x7E :: [] ∧
    { State.reset with turns := [.send] }.turns = .send :: [] ∧
    { State.reset with turns := [.send] }.txq = [] := by decide

theorem witness_ConstructionKeepsInvariant : Config.default.wf := by decide

/-- A step that stores a byte: the hypotheses of `StepKeepsInvariant`, `ParametersFixedCapacityGrows` and
`QueuesFirstInFirstOut` together. -/
theorem witness_StepKeepsInvariant :
    { midFrame with rxq := [0x06] }.inv ∧ ∃ t, step { midFrame with rxq := [0x06] } = .next t :=
  ⟨by decide, _, rfl⟩

theorem witness_PacketsDisjoint :
    (∃ t, exec .start midFrame = .next t) ∧ Instr.start.receivePath = true ∧
    (∃ t, exec .encLenMsb (serializing .lenMsb 0 0) = .next t) ∧ Instr.encLenMsb.receivePath = false :=
  ⟨⟨_, rfl⟩, rfl, ⟨_, rfl⟩, rfl⟩

/-- Each clause's condition met after an instruction that records the code, or keeps it; the columns of codes 4 and 5 and
a row that records nothing. -/
theorem witness_ErrorCodeMatrix :
    (next? (exec (.pktSet .outgoing 50 0xA2) State.reset)).map (·.out.errorCode) =
      some .maxFrameLengthExceeded ∧
    (next? (exec (.pktGet .outgoing 0) State.reset)).map (·.out.errorCode) = some .frameLengthExceeded ∧
    (next? (exec (.ftModemStatus .read) State.reset)).map (·.inp.errorCode) = some .frameLengthExceeded ∧
    (next? (exec (.bufSet .outgoing 50 0xA2) State.reset)).map (·.out.errorCode) = some .noError ∧
    (Instr.bufSet .outgoing 50 0xA2).records .outgoing = [] ∧
    (next? (exec .decIsComplete (record .incoming .reallocationFailed State.reset))).map (·.inp.errorCode) =
      some .reallocationFailed ∧
    (next? (exec .decIsComplete (record .outgoing .checksumFailure State.reset))).map (·.out.errorCode) =
      some .checksumFailure ∧
    Instr.decIsComplete.isHostOp = true ∧
    (next? (exec .decIsComplete (record .incoming .packetIncomplete State.reset))).map (·.inp.errorCode) =
      some .packetIncomplete ∧
    (next? (exec .start midFrame)).map (·.inp.errorCode) = some .unexpectedPacketStart ∧
    Instr.start.isHostOp = false ∧
    (next? (exec .encStart (record .incoming .frameLengthExceeded State.reset))).map (·.inp.errorCode) =
      some .frameLengthExceeded := by decide

theorem witness_UnescapedModeNeverSuspends :
    let s := { unescaped with rxq := [0x7E] }
    s.cfg.escapedMode = false ∧ (next? (step s)).map (·.dec.idx) = some 5 := by decide

theorem witness_BufEnsureResult :
    ((State.reset.pkt .outgoing).cap < 50 ∧ 50 ≤ State.reset.maxLen .outgoing) ∧
    ¬ ((State.reset.pkt .outgoing).cap < 51 ∧ 51 ≤ State.reset.maxLen .outgoing) ∧
    ¬ ((State.reset.pkt .outgoing).cap < 0 ∧ 0 ≤ State.reset.maxLen .outgoing) := by decide

theorem witness_BufGetResult :
    (0 < (midFrame.pkt .incoming).cap ∧ (midFrame.pkt .incoming).buf.read 0 = some 0x8A) ∧
    (midFrame.pkt .incoming).cap ≤ 10 ∧
    (9 < (midFrame.pkt .incoming).cap ∧ (midFrame.pkt .incoming).buf.read 9 = none) := by decide

theorem witness_BufSetResult :
    State.reset.maxLen .incoming ≤ 50 ∧ 49 < State.reset.maxLen .incoming := by decide

theorem witness_PktGetResult :
    (0 < (midFrame.pkt .incoming).frameLength.toNat ∧ (midFrame.pkt .incoming).peek 0 = some 0x8A) ∧
    (2 < (midFrame.pkt .incoming).frameLength.toNat ∧ (midFrame.pkt .incoming).peek 2 = none) ∧
    (midFrame.pkt .incoming).frameLength.toNat ≤ 3 := by decide

/-- The last clause (`i + 1` beyond 16 bits) is met by a packet with a larger ceiling. -/
theorem witness_PktSetResult :
    State.reset.maxLen .outgoing ≤ 50 ∧ 49 < State.reset.maxLen .outgoing ∧ 49 + 1 < 65536 ∧
    65535 < (State.construct { Config.default with mOut := 70000 }).maxLen .outgoing := by decide

theorem witness_PktSetnResult :
    State.reset.maxLen .outgoing < 49 + 2 ∧
    (48 + 2 ≤ State.reset.maxLen .outgoing ∧ ([0x01] : List Byte).length < 2) ∧
    (48 + 2 ≤ State.reset.maxLen .outgoing ∧ 2 ≤ ([0x01, 0x02] : List Byte).length ∧ 48 + 2 < 65536) ∧
    (48 + (1 + 1) ≤ State.reset.maxLen .outgoing ∧ 1 ≤ ([0x01] : List Byte).length) := by decide

theorem witness_PktCalcChecksumResult :
    ((holding [0x8A, 0x06]).pkt .incoming).frame = some [0x8A, 0x06] := by decide

theorem witness_EntryAndFetchRows :
    let complete := { State.reset with dec := { State.reset.dec with complete := true } }
    (complete.dec.complete = true ∧ complete.inp.errorCode ≠ .unexpectedPacketStart) ∧
    (record .incoming .unexpectedPacketStart State.reset).inp.errorCode = .unexpectedPacketStart ∧
    (State.reset.dec.complete = false ∧ State.reset.inp.errorCode = .noError) ∧
    { midFrame with rxq := [0x06] }.rxq = 0x06 :: [] ∧ midFrame.rxq = [] := by decide

theorem witness_EscapeRemoverRows :
    midFrame.cfg.escapedMode = true ∧
    { midFrame with dec := { midFrame.dec with escaping := true } }.dec.escaping = true ∧
    (midFrame.dec.escaping = false ∧ 0 < midFrame.dec.idx ∧
      { midFrame with rxq := [0x5E] }.rxq = 0x5E :: []) ∧ midFrame.rxq = [] := by decide

theorem witness_DecoderErrorRows :
    (midFrame.cfg.escapedMode = true ∧ midFrame.fromEscape = false ∧ 0 < midFrame.dec.idx) ∧
    ((atIdx 0).dec.idx = 0 ∧ (0x7D : Byte) ≠ 0x7E) ∧
    (3 ≤ (atIdx 51).dec.idx ∧ (atIdx 51).cfg.mIn < (atIdx 51).dec.idx) := by decide

theorem witness_SumAndStartRows : 3 ≤ (atIdx 3).dec.idx ∧ (atIdx 0).dec.idx = 0 := by decide

theorem witness_LengthRows : (atIdx 1).dec.idx = 1 ∧ (atIdx 2).dec.idx = 2 := by decide

theorem witness_ChecksumRows :
    let s := atCheck 0xFF
    let t := atCheck 0xE5
    (3 ≤ s.dec.idx ∧ s.dec.idx ≤ s.cfg.mIn ∧ s.dec.idx = s.inp.frameLength.toNat + 3 ∧
      s.dec.csum = 0xFF) ∧
    (3 ≤ t.dec.idx ∧ t.dec.idx ≤ t.cfg.mIn ∧ t.dec.idx = t.inp.frameLength.toNat + 3 ∧
      t.dec.csum ≠ 0xFF) := by decide

/-- The two length clauses: in the frame, and past an end the host has lowered. -/
theorem witness_StoreRow :
    (3 ≤ midFrame.dec.idx ∧ midFrame.dec.idx ≤ midFrame.cfg.mIn ∧
      midFrame.dec.idx ≠ midFrame.inp.frameLength.toNat + 3 ∧
      midFrame.dec.idx < midFrame.inp.frameLength.toNat + 3) ∧
    (3 ≤ (atIdx 50).dec.idx ∧ (atIdx 50).dec.idx ≤ (atIdx 50).cfg.mIn ∧
      (atIdx 50).inp.frameLength.toNat + 3 < (atIdx 50).dec.idx ∧ (atIdx 50).dec.idx - 2 < 65536) := by
  decide

theorem witness_WireUnitsRunTheAlgorithm :
    Instr.xon.isWireUnit = true ∧ encode .xon = some [0x11] ∧
    Instr.escXon.isWireUnit = true ∧ encode .escXon = some [0x7D, 0x31] ∧ midFrame.flight = none := by
  decide

theorem witness_RowsMakeTheByteStep :
    { midFrame with rxq := [0x7D, 0x5E] }.call = .drain ∧
    { midFrame with rxq := [0x7D, 0x5E] }.flight = none ∧
    { midFrame with rxq := [0x7D, 0x5E] }.rxq = 0x7D :: [0x5E] := by decide

theorem witness_StartAndEscapeUnits :
    ((atIdx 0).flight = none ∧ (atIdx 0).dec.escaping = false ∧ (atIdx 0).dec.idx = 0) ∧
    ((atIdx 1).flight = none ∧ (atIdx 1).dec.escaping = false ∧ 0 < (atIdx 1).dec.idx ∧
      (atIdx 1).cfg.escapedMode = true ∧ (atIdx 1).rxq = []) := by decide

/-- At the first and at the last frame byte of a 3-byte frame; START and ESCAPE as data in unescaped mode. -/
theorem witness_FrameByteUnits :
    (Instr.ftExplicitRx.isWireUnit = true ∧ Instr.ftExplicitRx.wellFormed = true ∧
      encode .ftExplicitRx = some [0x91] ∧
      (midFrame.cfg.escapedMode = false ∨ ((0x91 : Byte) ≠ 0x7E ∧ (0x91 : Byte) ≠ 0x7D))) ∧
    ((atIdx 3).flight = none ∧ (atIdx 3).dec.escaping = false ∧ 3 ≤ (atIdx 3).dec.idx ∧
      (atIdx 3).dec.idx ≤ (atIdx 3).cfg.mIn ∧
      (atIdx 3).dec.idx < (atIdx 3).inp.frameLength.toNat + 3) ∧
    (atIdx 5).dec.idx < (atIdx 5).inp.frameLength.toNat + 3 ∧
    (Instr.start.wellFormed = true ∧ encode .start = some [0x7E] ∧ Instr.escape.wellFormed = true ∧
      encode .escape = some [0x7D] ∧ unescaped.cfg.escapedMode = false ∧ unescaped.flight = none ∧
      unescaped.dec.escaping = false ∧ 3 ≤ unescaped.dec.idx ∧ unescaped.dec.idx ≤ unescaped.cfg.mIn ∧
      unescaped.dec.idx < unescaped.inp.frameLength.toNat + 3) := by decide

theorem witness_EscapedFrameByteUnits :
    (Instr.escGeneric 0x7E).isWireUnit = true ∧ encode (.escGeneric 0x7E) = some [0x7D, 0x7E] ∧
    midFrame.cfg.escapedMode = true ∧ midFrame.flight = none ∧ midFrame.dec.escaping = false ∧
    3 ≤ midFrame.dec.idx ∧ midFrame.dec.idx ≤ midFrame.cfg.mIn ∧
    midFrame.dec.idx < midFrame.inp.frameLength.toNat + 3 := by decide

/-- A first call that ends terminal (a stray byte), and one that does not. -/
theorem witness_IncrementalEquivalence :
    (referencePoll (State.reset.polling [0x00])).terminal = true ∧
    (referencePoll (State.reset.polling [0x7E, 0x00])).terminal = false := by decide

/-- Both ways to stand at a message start; the shortest and the longest frame that `M_IN = 8` takes; a right and a
wrong checksum byte. -/
theorem witness_ChecksumVerdict :
    let small := State.construct { Config.default with mIn := 8 }
    State.reset.atMessageStart ∧ (record .incoming .checksumFailure State.reset).atMessageStart ∧
    small.atMessageStart ∧ ([0x01, 0x02, 0x03, 0x04, 0x05] : List Byte).length + 3 ≤ small.cfg.mIn ∧
    ([] : List Byte).length + 3 ≤ small.cfg.mIn ∧ frameSum [] + 0xFF = 0xFF ∧
    frameSum [] + 0x00 ≠ 0xFF := by decide

theorem witness_OverlongFrameRejected :
    let small := State.construct { Config.default with mIn := 2 }
    small.atMessageStart ∧ 2 ≤ small.cfg.mIn ∧ small.cfg.mIn < ([] : List Byte).length + 3 ∧
    ([] : List Byte).length < 65536 := by decide

theorem witness_PutRows :
    ((serializing .start 0 0).call = .serialize ⟨.start, 0, 0⟩) ∧
    ((0x41 : Byte) ≠ 0x7E ∧ (0x41 : Byte) ≠ 0x7D ∧ (0x41 : Byte) ≠ 0x11 ∧ (0x41 : Byte) ≠ 0x13) ∧
    { State.reset with cfg := { Config.default with escapedMode := false } }.cfg.escapedMode = false ∧
    State.reset.cfg.escapedMode = true := by decide

theorem witness_LengthEmissionRows :
    (serializing .lenMsb 0 0).call = .serialize ⟨.lenMsb, 0, 0⟩ ∧
    (serializing .lenLsb 0 0).call = .serialize ⟨.lenLsb, 0, 0⟩ := by decide

theorem witness_DataEmissionRow :
    (serializing .data 0xA0 3).call = .serialize ⟨.data, 0xA0, 3⟩ ∧
    3 < (serializing .data 0xA0 3).out.frameLength.toNat ∧
    (serializing .data 0xA0 3).out.peek 3 = some 0x49 := by decide

theorem witness_ChecksumEmissionAndFlushRows :
    ((serializing .data 0xA0 4).call = .serialize ⟨.data, 0xA0, 4⟩ ∧
      (serializing .data 0xA0 4).out.frameLength.toNat ≤ 4) ∧
    ((serializing .flush 0xA0 4).call = .serialize ⟨.flush, 0xA0, 4⟩ ∧
      (serializing .flush 0xA0 4).txq = []) ∧
    { serializing .flush 0xA0 4 with txq := [0x5F] }.txq ≠ [] := by decide

theorem witness_EncoderWritesTheMessage :
    (serializing .start 0 0).turns = [] ∧ (serializing .start 0 0).call = .serialize ⟨.start, 0, 0⟩ ∧
    (serializing .start 0 0).out.frame = some [0x08, 0x01, 0x4E, 0x49] := by decide

theorem witness_FlushReturnsUnderProgress :
    let held := { serializing .flush 0xA0 4 with txq := [0x5F] }
    let sending := { held with turns := [.unit, .send] }
    held.call = .serialize ⟨.flush, 0xA0, 4⟩ ∧ held.turns = [] ∧ held.txq ≠ [] ∧
    sending.call = .serialize ⟨.flush, 0xA0, 4⟩ ∧ sending.txq.length ≤ sending.turns.count .send := by
  decide

/-- The longest frame within both limits of the defaults has 47 bytes (R190). -/
theorem witness_RoundTrip :
    (List.replicate 47 (0x7E : Byte)).length ≤ Config.default.mOut ∧
    (List.replicate 47 (0x7E : Byte)).length + 3 ≤ Config.default.mIn ∧
    (List.replicate 47 (0x7E : Byte)).length < 65536 ∧
    (messageBytes true [0x08]).length ≤ (List.replicate 5 Turn.send).count .send := by decide

/-- Payloads at the ceiling and one past it; an address given and one left to its default. -/
theorem witness_PrepareOperations :
    (State.reset.cfg.mOut < 4 + 47 ∧ 4 + 46 ≤ State.reset.cfg.mOut ∧ 4 + 46 < 65536) ∧
    (State.reset.cfg.mOut < 14 + 37 ∧ 14 + 36 ≤ State.reset.cfg.mOut) ∧
    (State.reset.cfg.mOut < 15 + 36 ∧ 15 + 35 ≤ State.reset.cfg.mOut) ∧
    (some { high := 0x0013A200, low := 0x40A01234 } : Option Address64).getD broadcastAddr64 =
      { high := 0x0013A200, low := 0x40A01234 } ∧
    (none : Option Half).getD broadcastAddr16 = broadcastAddr16 :=
  ⟨by decide, by decide, by decide, rfl, rfl⟩

/-- Whole frames, a TX Status frame that ends before its discovery status, and one whose frame id has never been
written. -/
theorem witness_ReadStatusFrames :
    (holding [0x8A, 0x06]).inp.frame = some (0x8A :: 0x06 :: []) ∧
    (holding [0x8A]).inp.frame = some [0x8A] ∧
    (holding [0x8B, 1, 2, 3, 4, 5, 6]).inp.frame = some (0x8B :: 1 :: 2 :: 3 :: 4 :: 5 :: 6 :: []) ∧
    ((holding [0x8B, 1, 2, 3, 4, 5]).inp.frameLength ≠ 0 ∧
      (holding [0x8B, 1, 2, 3, 4, 5]).inp.peek 0 = some 0x8B) ∧
    ((holdingFirst 0x8B 7).inp.frameLength ≠ 0 ∧ (holdingFirst 0x8B 7).inp.peek 0 = some 0x8B ∧
      (holdingFirst 0x8B 7).inp.peek 1 = none) ∧
    ((holdingFirst 0x8A 2).inp.frameLength ≠ 0 ∧ (holdingFirst 0x8A 2).inp.peek 0 = some 0x8A) := by
  decide

/-- Whole frames, frames one byte short of their fixed fields, and frames with never-written cells. -/
theorem witness_ReadPayloadFrames :
    let addresses := fieldBytes64 true 0x0013A200 0x40A01234 ++ fieldBytes16 true 0xFFFE
    (holding [0x88, 1, 0x4E, 0x49, 0, 0x20]).inp.frame =
      some (0x88 :: 1 :: 0x4E :: 0x49 :: 0 :: [0x20]) ∧
    (holding (0x97 :: 1 :: (addresses ++ [0x4E, 0x49, 0]))).inp.frame =
      some (0x97 :: 1 :: (addresses ++ [0x4E, 0x49, 0])) ∧
    (holding (0x90 :: (addresses ++ [0xC1, 0xAA]))).inp.frame =
      some (0x90 :: (addresses ++ [0xC1, 0xAA])) ∧
    (holding []).cfg.fieldMsbFirst = true ∧
    ((holdingFirst 0x88 4).inp.frameLength ≠ 0 ∧ (holdingFirst 0x88 4).inp.peek 0 = some 0x88) ∧
    ((holdingFirst 0x97 14).inp.frameLength ≠ 0 ∧ (holdingFirst 0x97 14).inp.peek 0 = some 0x97) ∧
    ((holdingFirst 0x90 11).inp.frameLength ≠ 0 ∧ (holdingFirst 0x90 11).inp.peek 0 = some 0x90) := by
  decide

theorem witness_ReadOtherType :
    (holding [0x92, 0x00]).inp.frame = some (0x92 :: [0x00]) ∧ (0x92 : Byte) ≠ 0x8A ∧
    (holding []).inp.frameLength = 0 := by decide

/-- A frame shorter than its fields, and one whose type cell has never been written. -/
theorem witness_ReadFormsFrame :
    (Instr.ftTxStatus .read, (0x8B : Byte)) ∈
      [(.ftAtCommandResponse .read, 0x88), (.ftModemStatus .read, 0x8A), (.ftTxStatus .read, 0x8B),
        (.ftRxReceived .read, 0x90), (.ftRemoteAtCommandResponse .read, 0x97)] ∧
    (holding [0x8B]).inp.frame ≠ none ∧
    { State.reset with inp := { State.reset.inp with cap := 10, frameLength := 2 } }.inp.peek 0 = none := by
  decide

end Sys2Proof.Tests
end

/-! O13, the disjointness of the two packets (R81).

An instruction of one path commutes with replacing the other path's packet, cursor and queue by any
others: so it reads none of them. It does not write them either: where they are replaced by what they
already hold, the state stays as it is, so by the same fact the next state does. -/

namespace Sys2Proof.Machine

open Host (Outcome)
open Function (Semiconj)

/-! ### Replacing one path's part of the state -/

/-- The state with the transmit path's packet and queue replaced. -/
def State.withTransmit (k : Packet) (q : List Byte) (s : State) : State :=
  { s with out := k, txq := q }

/-- The state with the receive path's packet, cursor and queue replaced. -/
def State.withReceive (k : Packet) (c : Cursor) (q : List Byte) (s : State) : State :=
  { s with inp := k, dec := c, rxq := q }

@[simp] theorem withTransmit_rxq (k : Packet) (q : List Byte) (s : State) :
    (s.withTransmit k q).rxq = s.rxq := rfl
@[simp] theorem withTransmit_flight (k : Packet) (q : List Byte) (s : State) :
    (s.withTransmit k q).flight = s.flight := rfl
@[simp] theorem withTransmit_escapesHere (k : Packet) (q : List Byte) (s : State) :
    (s.withTransmit k q).escapesHere = s.escapesHere := rfl
@[simp] theorem withReceive_call (k : Packet) (c : Cursor) (q : List Byte) (s : State) :
    (s.withReceive k c q).call = s.call := rfl

/-- An outcome with its next state replaced. -/
def mapNext (w : State → State) : Outcome State Fault Refusal → Outcome State Fault Refusal
  | .next t => .next (w t)
  | .fault r => .fault r
  | .refused r => .refused r

theorem semiconj_next {f w : State → State} (h : Semiconj f w w) :
    Semiconj (fun s => .next (f s)) w (mapNext w) :=
  fun s => congrArg Outcome.next (h s)

theorem semiconj_ite {α : Type} {f g : State → α} {w : State → State} {v : α → α}
    {P : State → Prop} [DecidablePred P] (hP : ∀ s, P (w s) ↔ P s) (hf : Semiconj f w v)
    (hg : Semiconj g w v) : Semiconj (fun s => if P s then f s else g s) w v := fun s => by
  by_cases h : P s
  · simp only [h, (hP s).2 h, if_true, hf s]
  · simp only [h, mt (hP s).1 h, if_false, hg s]

/-- The form of most rows of groups D and E: no effect where the condition fails (log 7). -/
theorem semiconj_guarded {f w : State → State} {P : State → Prop} [DecidablePred P]
    (hP : ∀ s, P (w s) ↔ P s) (hf : Semiconj f w w) :
    Semiconj (fun s => if P s then f s else s) w w :=
  semiconj_ite hP hf fun _ => rfl

/-- `w` replaces nothing that an operation on the packet `p` may touch: not `p`, the parameters, the
count of free values or the result. -/
structure SparesPacket (p : PacketId) (w : State → State) : Prop where
  pkt : ∀ s, (w s).pkt p = s.pkt p
  cfg : ∀ s, (w s).cfg = s.cfg
  setPkt : ∀ k s, (w s).setPkt p k = w (s.setPkt p k)
  drawByte : Semiconj drawByte w (Prod.map id w)
  fitLength : ∀ n, Semiconj (fitLength n) w (Prod.map id w)
  answer : ∀ r, Semiconj (answer r) w w

theorem withTransmit_sparesPacket (k : Packet) (q : List Byte) :
    SparesPacket .incoming (State.withTransmit k q) where
  pkt _ := rfl
  cfg _ := rfl
  setPkt _ _ := rfl
  drawByte _ := rfl
  fitLength _ := semiconj_ite (fun _ => Iff.rfl) (fun _ => rfl) (fun _ => rfl)
  answer _ _ := rfl

theorem withReceive_sparesPacket (k : Packet) (c : Cursor) (q : List Byte) :
    SparesPacket .outgoing (State.withReceive k c q) where
  pkt _ := rfl
  cfg _ := rfl
  setPkt _ _ := rfl
  drawByte _ := rfl
  fitLength _ := semiconj_ite (fun _ => Iff.rfl) (fun _ => rfl) (fun _ => rfl)
  answer _ _ := rfl

/-! ### The operations on one packet (R140 to R154) -/

section
variable {p : PacketId} {w : State → State} (hw : SparesPacket p w)
include hw

theorem SparesPacket.maxLen (s : State) : (w s).maxLen p = s.maxLen p := by
  cases p <;> simp [hw.cfg]

theorem SparesPacket.setPktOf (g : Packet → Packet) :
    Semiconj (fun s => s.setPkt p (g (s.pkt p))) w w := fun s => by
  simp only [hw.pkt, hw.setPkt]

theorem SparesPacket.record (c : ErrorCode) : Semiconj (record p c) w w :=
  hw.setPktOf fun k => { k with errorCode := c }

theorem SparesPacket.packetReset : Semiconj (packetReset p) w w :=
  hw.setPktOf fun k => { k with frameLength := 0, checksum := 0, errorCode := .noError }

theorem SparesPacket.bufEnsureOp (size : Nat) : Semiconj (bufEnsureOp p size) w w :=
  semiconj_guarded (fun s => by rw [hw.pkt, hw.maxLen])
    (hw.setPktOf fun k => { k with cap := size })

theorem SparesPacket.bufGetOp (i : Nat) : Semiconj (bufGetOp p i) w (Prod.map id w) := fun s => by
  simp only [Machine.bufGetOp, hw.pkt, hw.drawByte s]
  split
  · split <;> rfl
  · rfl

theorem SparesPacket.pktGetOp (i : Nat) : Semiconj (pktGetOp p i) w (Prod.map id w) :=
  semiconj_ite (fun s => by rw [hw.pkt]) (hw.bufGetOp i)
    fun s => congrArg (Prod.mk 0x00) (hw.record .frameLengthExceeded s)

theorem SparesPacket.bufSetOp (i : Nat) (v : Byte) :
    Semiconj (bufSetOp p i v) w (Option.map w) := fun s => by
  simp only [Machine.bufSetOp, hw.pkt, hw.maxLen, hw.setPkt]
  split <;> rfl

theorem SparesPacket.extendLength (i : Nat) : Semiconj (extendLength p i) w w := fun s => by
  simp only [Machine.extendLength, hw.pkt, hw.fitLength _ s, Prod.map, id, hw.setPkt]

theorem SparesPacket.pktSetOp (i : Nat) (v : Byte) : Semiconj (pktSetOp p i v) w w := fun s => by
  unfold Machine.pktSetOp
  rw [hw.bufSetOp i v s]
  cases Machine.bufSetOp p i v s with
  | none => exact hw.record _ s
  | some t => exact hw.extendLength i t

theorem SparesPacket.pktSetEach (bytes : List Byte) (i : Nat) :
    Semiconj (pktSetEach p i bytes) w w := by
  induction bytes generalizing i with
  | nil => exact fun _ => rfl
  | cons v rest ih => exact (ih (i + 1)).comp_left (hw.pktSetOp i v)

theorem SparesPacket.pktSetnOp (first : Nat) (bytes : List Byte) (n : Nat) :
    Semiconj (pktSetnOp p first bytes n) w w :=
  semiconj_ite (fun s => by rw [hw.maxLen]) (hw.record _) (hw.pktSetEach _ _)

theorem SparesPacket.sumCells (n i : Nat) (acc : Byte) :
    Semiconj (sumCells p i n acc) w (Prod.map id w) := by
  induction n generalizing i acc with
  | zero => exact fun _ => rfl
  | succ n ih =>
    intro s
    simp only [Machine.sumCells, hw.bufGetOp i s, Prod.map, id]
    exact ih _ _ _

theorem SparesPacket.calcChecksumOp : Semiconj (calcChecksumOp p) w (Prod.map id w) := fun s => by
  simp only [Machine.calcChecksumOp, hw.pkt, hw.sumCells _ _ _ s, Prod.map, id]

theorem SparesPacket.answerNone {f : State → State} (hf : Semiconj f w w) :
    Semiconj (fun s => .next (Machine.answer .none (f s))) w (mapNext w) :=
  semiconj_next ((hw.answer _).comp_left hf)

/-- An operation that answers the value of a read which may draw or record. -/
theorem SparesPacket.answerOp {α : Type} {op : State → α × State} (g : α → HostResult)
    (hop : Semiconj op w (Prod.map id w)) :
    Semiconj (fun s => .next (Machine.answer (g (op s).1) (op s).2)) w (mapNext w) := fun s => by
  simp only [hop s, Prod.map, id, hw.answer _ _, mapNext]

/-- An operation that answers a value of the packet's registers. -/
theorem SparesPacket.answerPkt (g : Packet → HostResult) :
    Semiconj (fun s => .next (Machine.answer (g (s.pkt p)) s)) w (mapNext w) := fun s => by
  simp only [hw.pkt, hw.answer _ _, mapNext]

theorem SparesPacket.execBufSet (i : Nat) (v : Byte) :
    Semiconj (execBufSet p i v) w (mapNext w) := fun s => by
  unfold Machine.execBufSet
  rw [hw.bufSetOp i v s]
  cases Machine.bufSetOp p i v s with
  | none => exact congrArg Outcome.next (hw.answer _ s)
  | some t => exact congrArg Outcome.next (hw.answer _ t)

theorem SparesPacket.execPktSetn (first : Nat) (bytes : List Byte) (n : Nat) :
    Semiconj (execPktSetn p first bytes n) w (mapNext w) :=
  semiconj_ite (fun s => by rw [hw.maxLen]) (hw.answerNone (hw.pktSetnOp first bytes n))
    fun _ => rfl

end

/-- The packet that an operation of group H names (R116). -/
def Instr.operand : Instr → Option PacketId
  | .bufEnsure p _ | .bufGet p _ | .bufSet p _ _ | .pktGet p _ | .pktSet p _ _ | .pktSetn p _ _ _
  | .pktLenMsb p | .pktLenLsb p | .pktSetLenMsb p _ | .pktSetLenLsb p _ | .pktCalcChecksum p
  | .pktReset p | .pktIsError p | .pktErrorCode p | .pktFrameLength p | .pktChecksum p => some p
  | _ => none

/-- An operation on a packet commutes with every replacement that spares that packet. -/
theorem SparesPacket.exec_operand {i : Instr} {p : PacketId} {w : State → State}
    (hw : SparesPacket p w) (hi : Instr.operand i = some p) : Semiconj (exec i) w (mapNext w) := by
  cases i with
  | bufEnsure _ size => cases hi; exact hw.answerNone (hw.bufEnsureOp size)
  | bufGet _ i => cases hi; exact hw.answerOp .byte (hw.bufGetOp i)
  | bufSet _ i v => cases hi; exact hw.execBufSet i v
  | pktGet _ i => cases hi; exact hw.answerOp .byte (hw.pktGetOp i)
  | pktSet _ i v => cases hi; exact hw.answerNone (hw.pktSetOp i v)
  | pktSetn _ first bytes n => cases hi; exact hw.execPktSetn first bytes n
  | pktLenMsb _ => cases hi; exact hw.answerPkt fun k => .byte (halfMsb k.frameLength)
  | pktLenLsb _ => cases hi; exact hw.answerPkt fun k => .byte (halfLsb k.frameLength)
  | pktSetLenMsb _ v =>
    cases hi
    exact hw.answerNone (hw.setPktOf fun k => { k with frameLength := withMsb v k.frameLength })
  | pktSetLenLsb _ v =>
    cases hi
    exact hw.answerNone (hw.setPktOf fun k => { k with frameLength := withLsb v k.frameLength })
  | pktCalcChecksum _ => cases hi; exact hw.answerOp .byte hw.calcChecksumOp
  | pktReset _ => cases hi; exact hw.answerNone hw.packetReset
  | pktIsError _ => cases hi; exact hw.answerPkt fun k => .flag k.isError
  | pktErrorCode _ => cases hi; exact hw.answerPkt fun k => .code k.errorCode
  | pktFrameLength _ => cases hi; exact hw.answerPkt fun k => .half k.frameLength
  | pktChecksum _ => cases hi; exact hw.answerPkt fun k => .byte k.checksum
  | _ => cases hi

/-! ### The field decoders, which read `IN` through `PKT.GET` (R249, R258) -/

section
variable {w : State → State} (hw : SparesPacket .incoming w)
include hw

theorem SparesPacket.inp (s : State) : (w s).inp = s.inp := hw.pkt s

theorem SparesPacket.readField1 (o : Option Nat) :
    Semiconj (readField1 o) w (Prod.map id w) := fun s => by
  cases o with
  | none => rfl
  | some i => simp only [Machine.readField1, hw.pktGetOp _ _, Prod.map, id]

theorem SparesPacket.readSpan (n i : Nat) : Semiconj (readSpan i n) w (Prod.map id w) := by
  induction n generalizing i with
  | zero => exact fun _ => rfl
  | succ n ih =>
    intro s
    simp only [Machine.readSpan, hw.pktGetOp _ _, ih _ _, Prod.map, id]

theorem SparesPacket.readCommand (o : Option Nat) :
    Semiconj (readCommand o) w (Prod.map id w) := fun s => by
  cases o with
  | none => rfl
  | some i => simp only [Machine.readCommand, hw.pktGetOp _ _, Prod.map, id]

theorem SparesPacket.readAddr16 (o : Option Nat) :
    Semiconj (readAddr16 o) w (Prod.map id w) := fun s => by
  cases o with
  | none => rfl
  | some i => simp only [Machine.readAddr16, hw.pktGetOp _ _, hw.cfg, Prod.map, id]

theorem SparesPacket.readAddr64 (o : Option Nat) :
    Semiconj (readAddr64 o) w (Prod.map id w) := fun s => by
  cases o with
  | none => rfl
  | some i => simp only [Machine.readAddr64, hw.readSpan _ _ _, hw.cfg, Prod.map, id]

theorem SparesPacket.readPayload (o : Option Nat) :
    Semiconj (readPayload o) w (Prod.map id w) := fun s => by
  cases o with
  | none => rfl
  | some n =>
    simp only [Machine.readPayload, hw.inp, hw.readSpan _ _ _, Prod.map, id]
    split <;> rfl

theorem SparesPacket.derivedAddr16 (s : State) : derivedAddr16 (w s) = derivedAddr16 s := by
  simp only [Machine.derivedAddr16, hw.inp]

theorem SparesPacket.readFields (t : Byte) (l : Layout) :
    Semiconj (readFields t l) w (Prod.map id w) := fun s => by
  simp only [Machine.readFields, hw.readField1 _ _, hw.readAddr64 _ _, hw.readAddr16 _ _,
    hw.readCommand _ _, hw.readPayload _ _, hw.derivedAddr16, Prod.map, id]

theorem SparesPacket.readFrame (code : Byte) (l : Layout) :
    Semiconj (readFrame code l) w w := fun s => by
  simp only [Machine.readFrame, hw.pktGetOp _ _, hw.readFields _ _ _, hw.answer _ _, Prod.map, id]
  split <;> rfl

end

/-! ### The receive path -/

/-- A unit of the wire stream runs the byte step of one raw byte, or that of an escape pair. -/
theorem exec_wireUnit {i : Instr} (hi : i.isWireUnit = true) :
    (∃ b, exec i = fun s => .next (byteStep b s)) ∨
      (∃ x, exec i = fun s => .next (escapePair x s)) := by
  cases i with
  | escStart | escEscape | escXon | escXoff | escGeneric => exact .inr ⟨_, rfl⟩
  | start | escape | xon | xoff | data | ftAtCommandQueued | ftExplicitAddressing | ftExplicitRx
  | ftIoRx | ftNodeId => exact .inl ⟨_, rfl⟩
  | ftAtCommand f | ftTransmitRequest f | ftRemoteAtCommand f | ftAtCommandResponse f
  | ftModemStatus f | ftTxStatus f | ftRxReceived f | ftRemoteAtCommandResponse f =>
    cases f with
    | wire => exact .inl ⟨_, rfl⟩
    | _ => cases hi
  | _ => cases hi

section
variable (k : Packet) (q : List Byte)

theorem decFetch_withTransmit :
    Semiconj decFetch (State.withTransmit k q) (State.withTransmit k q) := fun s => by
  unfold decFetch
  rw [withTransmit_rxq]
  cases s.rxq <;> rfl

theorem decEscInline_withTransmit :
    Semiconj decEscInline (State.withTransmit k q) (State.withTransmit k q) := fun s => by
  unfold decEscInline
  rw [withTransmit_escapesHere, withTransmit_rxq]
  split <;> rfl

theorem decStore_withTransmit (b : Byte) :
    Semiconj (decStore b) (State.withTransmit k q) (State.withTransmit k q) :=
  semiconj_guarded (fun _ => Iff.rfl) fun s =>
    congrArg (fun t => landed (t.setIdx (s.dec.idx + 1)))
      ((withTransmit_sparesPacket k q).pktSetOp (frameIndex s.dec.idx) b s)

theorem applyRow_withTransmit (i : Instr) :
    Semiconj (applyRow i) (State.withTransmit k q) (State.withTransmit k q) := by
  cases i with
  | decEscInline => exact decEscInline_withTransmit k q
  | decStore b => exact decStore_withTransmit k q b
  | decUnesc | decEscSuspend | decErrStart | decCsum | decSof | decErrNostart | decLenMsb
  | decLenLsb | decErrOverlen | decCkOk | decCkFail =>
    exact semiconj_guarded (fun _ => Iff.rfl) fun _ => rfl
  | _ => exact fun _ => rfl

theorem runRows_withTransmit (n : Nat) :
    Semiconj (runRows n) (State.withTransmit k q) (State.withTransmit k q) := by
  induction n with
  | zero => exact fun _ => rfl
  | succ n ih =>
    intro s
    unfold runRows
    rw [withTransmit_flight]
    cases s.flight with
    | none => rfl
    | some f => exact (congrArg (runRows n) (applyRow_withTransmit k q (selectRow f s) s)).trans (ih _)

theorem byteStep_withTransmit (b : Byte) :
    Semiconj (byteStep b) (State.withTransmit k q) (State.withTransmit k q) :=
  (runRows_withTransmit k q 3).comp_left fun _ => rfl

theorem escapePair_withTransmit (x : Byte) :
    Semiconj (escapePair x) (State.withTransmit k q) (State.withTransmit k q) :=
  fun s => byteStep_withTransmit k q escapeByte { s with rxq := x :: s.rxq }

theorem exec_wireUnit_withTransmit {i : Instr} (hi : i.isWireUnit = true) :
    Semiconj (exec i) (State.withTransmit k q) (mapNext (State.withTransmit k q)) := by
  obtain ⟨b, hb⟩ | ⟨x, hx⟩ := exec_wireUnit hi
  · exact hb ▸ semiconj_next (byteStep_withTransmit k q b)
  · exact hx ▸ semiconj_next (escapePair_withTransmit k q x)

theorem exec_byteRow_withTransmit {i : Instr} (hi : Instr.isByteRow i = true) :
    Semiconj (exec i) (State.withTransmit k q) (mapNext (State.withTransmit k q)) := fun s => by
  rw [exec_byteRow i _ hi, exec_byteRow i _ hi, applyRow_withTransmit k q i s, mapNext]

/-- An instruction of the receive path commutes with replacing `OUT` and `TXQ` (R81). -/
theorem exec_withTransmit {i : Instr} (hi : i.receivePath = true) :
    Semiconj (exec i) (State.withTransmit k q) (mapNext (State.withTransmit k q)) := by
  have hw := withTransmit_sparesPacket k q
  cases i with
  | start | escape | xon | xoff | data | escStart | escEscape | escXon | escXoff | escGeneric
  | ftAtCommandQueued | ftExplicitAddressing | ftExplicitRx | ftIoRx | ftNodeId =>
    exact exec_wireUnit_withTransmit k q rfl
  | decEntryRestart | decEntryResume1 =>
    exact semiconj_next (semiconj_guarded (fun _ => Iff.rfl) fun _ => rfl)
  | decEntryContinue =>
    exact semiconj_next (semiconj_ite (fun _ => Iff.rfl) (fun _ => rfl) fun _ => rfl)
  | decFetch => exact semiconj_next (decFetch_withTransmit k q)
  | decUnesc | decEscInline | decEscSuspend | decErrStart | decCsum | decSof | decErrNostart
  | decLenMsb | decLenLsb | decErrOverlen | decCkOk | decCkFail | decStore =>
    exact exec_byteRow_withTransmit k q rfl
  | encStart | encPutRaw | encPutEsc | encLenMsb | encLenLsb | encData | encCsum | encFlush
  | encSerialize => cases hi
  | bufEnsure p | bufGet p | bufSet p | pktGet p | pktSet p | pktSetn p | pktLenMsb p | pktLenLsb p
  | pktSetLenMsb p | pktSetLenLsb p | pktCalcChecksum p | pktReset p | pktIsError p
  | pktErrorCode p | pktFrameLength p | pktChecksum p =>
    cases p with
    | incoming => exact hw.exec_operand rfl
    | outgoing => cases hi
  | decPoll | decIsComplete | decReset => exact fun _ => rfl
  | ftAtCommand f | ftTransmitRequest f | ftRemoteAtCommand f =>
    cases f with
    | wire => exact exec_wireUnit_withTransmit k q rfl
    | prepare => cases hi
  | ftAtCommandResponse f | ftModemStatus f | ftTxStatus f | ftRxReceived f
  | ftRemoteAtCommandResponse f =>
    cases f with
    | wire => exact exec_wireUnit_withTransmit k q rfl
    | read => exact semiconj_next (hw.readFrame _ _)

end

/-! ### The transmit path -/

section
variable (k : Packet) (c : Cursor) (q : List Byte)

theorem encPut_withReceive (b : Byte) :
    Semiconj (encPut b) (State.withReceive k c q) (State.withReceive k c q) := fun s => by
  rw [encPut_eq, encPut_eq]
  rfl

/-- The form of the encoder's rows: no effect outside one stage of a running `ENC.SERIALIZE` (log 7). -/
theorem semiconj_serializing {P : EncTemps → State → Prop} [∀ t, DecidablePred (P t)]
    {f : EncTemps → State → State} (hP : ∀ t s, P t (s.withReceive k c q) ↔ P t s)
    (hf : ∀ t, Semiconj (f t) (State.withReceive k c q) (State.withReceive k c q)) :
    Semiconj (fun s => match s.call with
      | .serialize t => if P t s then f t s else s
      | _ => s) (State.withReceive k c q) (State.withReceive k c q) := fun s => by
  beta_reduce
  rw [withReceive_call]
  cases s.call with
  | serialize t => exact semiconj_guarded (hP t) (hf t) s
  | _ => rfl

theorem encStart_withReceive :
    Semiconj encStart (State.withReceive k c q) (State.withReceive k c q) :=
  semiconj_serializing k c q (fun _ _ => Iff.rfl) fun _ _ => rfl

theorem encLenMsb_withReceive :
    Semiconj encLenMsb (State.withReceive k c q) (State.withReceive k c q) :=
  semiconj_serializing k c q (fun _ _ => Iff.rfl) fun _ s =>
    congrArg (State.setEnc · _) (encPut_withReceive k c q _ s)

theorem encLenLsb_withReceive :
    Semiconj encLenLsb (State.withReceive k c q) (State.withReceive k c q) :=
  semiconj_serializing k c q (fun _ _ => Iff.rfl) fun _ s =>
    congrArg (State.setEnc · _) (encPut_withReceive k c q _ s)

theorem encData_withReceive :
    Semiconj encData (State.withReceive k c q) (State.withReceive k c q) :=
  semiconj_serializing k c q (fun _ _ => Iff.rfl) fun _ s => by
    simp only [(withReceive_sparesPacket k c q).pktGetOp _ s, Prod.map, id,
      encPut_withReceive k c q _ _]
    rfl

theorem encCsum_withReceive :
    Semiconj encCsum (State.withReceive k c q) (State.withReceive k c q) :=
  semiconj_serializing k c q (fun _ _ => Iff.rfl) fun _ s =>
    congrArg (State.setEnc · _) (encPut_withReceive k c q _ s)

theorem encFlush_withReceive :
    Semiconj encFlush (State.withReceive k c q) (State.withReceive k c q) :=
  semiconj_serializing k c q (fun _ _ => Iff.rfl) fun _ _ => rfl

theorem nextFrameIdOp_withReceive :
    Semiconj nextFrameIdOp (State.withReceive k c q) (Prod.map id (State.withReceive k c q)) :=
  semiconj_ite (fun _ => Iff.rfl) (fun _ => rfl) fun _ => rfl

theorem setFields_withReceive (fields : List (Nat × Byte)) :
    Semiconj (setFields fields) (State.withReceive k c q) (State.withReceive k c q) := by
  induction fields with
  | nil => exact fun _ => rfl
  | cons f rest ih => exact ih.comp_left ((withReceive_sparesPacket k c q).pktSetOp f.1 f.2)

theorem prepareFrame_withReceive (i : Nat) (payload : List Byte) (fields : List (Nat × Byte)) :
    Semiconj (prepareFrame i payload fields) (State.withReceive k c q)
      (State.withReceive k c q) := fun s => by
  have hw := withReceive_sparesPacket k c q
  simp only [prepareFrame, hw.packetReset _, hw.pktSetnOp _ _ _ _, setFields_withReceive k c q _ _,
    nextFrameIdOp_withReceive k c q _, hw.pktSetOp _ _ _, Prod.map, id]

/-- An instruction of the transmit path commutes with replacing `IN`, the cursor and `RXQ` (R81). -/
theorem exec_withReceive {i : Instr} (hi : i.receivePath = false) :
    Semiconj (exec i) (State.withReceive k c q) (mapNext (State.withReceive k c q)) := by
  have hw := withReceive_sparesPacket k c q
  cases i with
  | encStart => exact semiconj_next (encStart_withReceive k c q)
  | encPutRaw | encPutEsc =>
    exact semiconj_next (semiconj_ite (fun _ => Iff.rfl) (fun _ => rfl) fun _ => rfl)
  | encLenMsb => exact semiconj_next (encLenMsb_withReceive k c q)
  | encLenLsb => exact semiconj_next (encLenLsb_withReceive k c q)
  | encData => exact semiconj_next (encData_withReceive k c q)
  | encCsum => exact semiconj_next (encCsum_withReceive k c q)
  | encFlush => exact semiconj_next (encFlush_withReceive k c q)
  | encSerialize => exact fun _ => rfl
  | bufEnsure p | bufGet p | bufSet p | pktGet p | pktSet p | pktSetn p | pktLenMsb p | pktLenLsb p
  | pktSetLenMsb p | pktSetLenLsb p | pktCalcChecksum p | pktReset p | pktIsError p
  | pktErrorCode p | pktFrameLength p | pktChecksum p =>
    cases p with
    | incoming => cases hi
    | outgoing => exact hw.exec_operand rfl
  | ftAtCommand f | ftTransmitRequest f | ftRemoteAtCommand f =>
    cases f with
    | wire => cases hi
    | prepare a => exact hw.answerNone fun s => prepareFrame_withReceive k c q _ _ _ s
  | ftAtCommandResponse f | ftModemStatus f | ftTxStatus f | ftRxReceived f
  | ftRemoteAtCommandResponse f => cases f <;> cases hi
  | _ => cases hi

end

/-! ### Neither read nor written -/

/-- What `w` replaces is not read. -/
theorem exec_next_of_semiconj {i : Instr} {w : State → State}
    (h : Semiconj (exec i) w (mapNext w)) {s t : State} (ht : exec i s = .next t) :
    exec i (w s) = .next (w t) := by
  rw [h s, ht, mapNext]

/-- What `w` replaces is not written either: a replacement that changes nothing in a state changes
nothing in its next state. -/
theorem fixed_next_of_semiconj {i : Instr} {w : State → State}
    (h : Semiconj (exec i) w (mapNext w)) {s t : State} (ht : exec i s = .next t) (hs : w s = s) :
    w t = t := by
  have hwt : exec i (w s) = .next (w t) := exec_next_of_semiconj h ht
  rw [hs, ht] at hwt
  exact (Outcome.next.inj hwt).symm

/-- Settles O13, by the commutation of each path's instructions with the replacement of the other path's
packet, cursor and queue. -/
theorem packetsDisjoint : Obligations.PacketsDisjoint := by
  intro i s t k c q ht
  constructor
  · intro hi
    have hfix : t.withTransmit s.out s.txq = t :=
      fixed_next_of_semiconj (exec_withTransmit s.out s.txq hi) ht rfl
    exact ⟨(congrArg State.out hfix).symm, (congrArg State.txq hfix).symm,
      exec_next_of_semiconj (exec_withTransmit k q hi) ht⟩
  · intro hi
    have hfix : t.withReceive s.inp s.dec s.rxq = t :=
      fixed_next_of_semiconj (exec_withReceive s.inp s.dec s.rxq hi) ht rfl
    exact ⟨(congrArg State.inp hfix).symm, (congrArg State.dec hfix).symm,
      (congrArg State.rxq hfix).symm, exec_next_of_semiconj (exec_withReceive k c q hi) ht⟩

end Sys2Proof.Machine

/-! O24, O18, O20, O23 and O26, the packet store (R141, R143, R146 to R149, R151 to R153).

A frame length is the append of its two bytes: reading a byte of it gives one part, writing a byte
replaces one part, and division and remainder by 256 are the arithmetic of that append. -/

namespace Sys2Proof.Machine

/-! ### The two bytes of a 16-bit value -/

theorem toNat_append_bytes (a b : Byte) : (a ++ b).toNat = a.toNat * 256 + b.toNat := by
  rw [BitVec.toNat_append, ← Nat.shiftLeft_add_eq_or_of_lt b.isLt, Nat.shiftLeft_eq]

theorem append_bytes_eq_ofNat (a b : Byte) : a ++ b = BitVec.ofNat 16 (a.toNat * 256 + b.toNat) := by
  rw [← toNat_append_bytes, BitVec.ofNat_toNat, BitVec.setWidth_eq]

theorem halfMsb_append_halfLsb (h : Half) : halfMsb h ++ halfLsb h = h :=
  BitVec.extractLsb'_append_extractLsb' (w := 8) (len := 8)

@[simp] theorem halfMsb_append (a b : Byte) : halfMsb (a ++ b) = a :=
  BitVec.extractLsb'_append_eq_left

@[simp] theorem halfLsb_append (a b : Byte) : halfLsb (a ++ b) = b :=
  BitVec.extractLsb'_append_eq_right

theorem halfMsb_toNat (h : Half) : (halfMsb h).toNat = h.toNat / 256 := by
  have hsum := toNat_append_bytes (halfMsb h) (halfLsb h)
  have hlt := (halfLsb h).isLt
  rw [halfMsb_append_halfLsb] at hsum
  omega

theorem halfLsb_toNat (h : Half) : (halfLsb h).toNat = h.toNat % 256 := by
  have hsum := toNat_append_bytes (halfMsb h) (halfLsb h)
  have hlt := (halfLsb h).isLt
  rw [halfMsb_append_halfLsb] at hsum
  omega

theorem halfMsb_eq_ofNat (h : Half) : halfMsb h = BitVec.ofNat 8 (h.toNat / 256) := by
  rw [← halfMsb_toNat, BitVec.ofNat_toNat, BitVec.setWidth_eq]

theorem halfLsb_eq_ofNat (h : Half) : halfLsb h = BitVec.ofNat 8 (h.toNat % 256) := by
  rw [← halfLsb_toNat, BitVec.ofNat_toNat, BitVec.setWidth_eq]

/-- The mask and the shift of R148 put `v` in the most significant byte and keep the other. -/
theorem withMsb_append (v a b : Byte) : withMsb v (a ++ b) = v ++ b := by
  have hkeep : (a ++ b : Half) &&& 0x00FF = 0#8 ++ b := by
    rw [show (0x00FF : Half) = 0#8 ++ BitVec.allOnes 8 from rfl, BitVec.and_append, BitVec.and_zero,
      BitVec.and_allOnes]
  have hput : v.setWidth 16 <<< 8 = v ++ 0#8 := by
    rw [BitVec.append_def, BitVec.shiftLeftZeroExtend_eq]
    exact BitVec.or_zero.symm
  rw [withMsb, hkeep, hput, BitVec.or_append, BitVec.or_zero, BitVec.zero_or]

/-- The mask of R149 leaves room for `v` in the least significant byte and keeps the other. -/
theorem withLsb_append (v a b : Byte) : withLsb v (a ++ b) = a ++ v := by
  have hkeep : (a ++ b : Half) &&& 0xFF00 = a ++ 0#8 := by
    rw [show (0xFF00 : Half) = BitVec.allOnes 8 ++ 0#8 from rfl, BitVec.and_append, BitVec.and_zero,
      BitVec.and_allOnes]
  have hput : v.setWidth 16 = 0#8 ++ v := BitVec.setWidth_eq_append (by decide)
  rw [withLsb, hkeep, hput, BitVec.or_append, BitVec.or_zero, BitVec.zero_or]

theorem withMsb_eq_append (v : Byte) (h : Half) : withMsb v h = v ++ halfLsb h := by
  have happ := withMsb_append v (halfMsb h) (halfLsb h)
  rwa [halfMsb_append_halfLsb] at happ

theorem withLsb_eq_append (v : Byte) (h : Half) : withLsb v h = halfMsb h ++ v := by
  have happ := withLsb_append v (halfMsb h) (halfLsb h)
  rwa [halfMsb_append_halfLsb] at happ

theorem withMsb_eq_ofNat (v : Byte) (h : Half) :
    withMsb v h = BitVec.ofNat 16 (v.toNat * 256 + h.toNat % 256) := by
  rw [withMsb_eq_append, append_bytes_eq_ofNat, halfLsb_toNat]

theorem withLsb_eq_ofNat (v : Byte) (h : Half) :
    withLsb v h = BitVec.ofNat 16 (h.toNat / 256 * 256 + v.toNat) := by
  rw [withLsb_eq_append, append_bytes_eq_ofNat, halfMsb_toNat]

/-- Each of the two writes keeps the byte that the other one sets. -/
theorem withLsb_withMsb_comm (v w : Byte) (h : Half) :
    withLsb w (withMsb v h) = withMsb v (withLsb w h) := by
  simp only [withMsb_eq_append, withLsb_eq_append, halfMsb_append, halfLsb_append]

/-! ### `PKT.SET_LEN_MSB` and `PKT.SET_LEN_LSB` (R148, R149) -/

/-- What both writes of a length byte do: a new frame length, no result, nothing else. -/
def State.lengthWritten (s : State) (p : PacketId) (len : Half) : State :=
  answer .none (s.setPkt p { s.pkt p with frameLength := len })

@[simp] theorem lengthWritten_frameLength (s : State) (p : PacketId) (len : Half) :
    ((s.lengthWritten p len).pkt p).frameLength = len := by
  cases p <;> rfl

/-- Of two writes of the length the later one stays. -/
@[simp] theorem lengthWritten_lengthWritten (s : State) (p : PacketId) (len len' : Half) :
    (s.lengthWritten p len).lengthWritten p len' = s.lengthWritten p len' := by
  cases p <;> rfl

theorem exec_pktSetLenMsb (p : PacketId) (v : Byte) (s : State) :
    exec (.pktSetLenMsb p v) s =
      .next (s.lengthWritten p (withMsb v (s.pkt p).frameLength)) := rfl

theorem exec_pktSetLenLsb (p : PacketId) (v : Byte) (s : State) :
    exec (.pktSetLenLsb p v) s =
      .next (s.lengthWritten p (withLsb v (s.pkt p).frameLength)) := rfl

/-- Settles O24, by the arithmetic of the two bytes, which the two writes set independently. -/
theorem pktLengthHalvesWritten : Obligations.PktLengthHalvesWritten := by
  intro s p v w
  refine ⟨?_, ?_, _, _, exec_pktSetLenMsb p v s, exec_pktSetLenLsb p w s, ?_⟩
  · rw [exec_pktSetLenMsb, withMsb_eq_ofNat]
    rfl
  · rw [exec_pktSetLenLsb, withLsb_eq_ofNat]
    rfl
  · simp only [exec_pktSetLenMsb, exec_pktSetLenLsb, lengthWritten_frameLength,
      lengthWritten_lengthWritten, withLsb_withMsb_comm]

/-! ### `BUF.GET` (R141) -/

theorem peek_of_lt {k : Packet} {i : Nat} (h : i < k.cap) : k.peek i = k.buf.read i := if_pos h

theorem peek_of_le {k : Packet} {i : Nat} (h : k.cap ≤ i) : k.peek i = some 0x00 :=
  if_neg (Nat.not_lt.mpr h)

theorem exec_bufGet (p : PacketId) (i : Nat) (s : State) :
    exec (.bufGet p i) s = .next (answer (.byte (bufGetOp p i s).1) (bufGetOp p i s).2) := rfl

/-- A cell that has a value is answered, and nothing else changes. -/
theorem exec_bufGet_of_peek {s : State} {p : PacketId} {i : Nat} {b : Byte}
    (h : (s.pkt p).peek i = some b) :
    exec (.bufGet p i) s = .next { s with result := .byte b } := by
  rw [exec_bufGet, bufGetOp_peek h]
  rfl

/-- Whatever the cell holds, some byte is answered, and at most the count of free values changes besides. -/
theorem exec_bufGet_some_byte (s : State) (p : PacketId) (i : Nat) :
    ∃ b n, exec (.bufGet p i) s = .next { s with result := .byte b, draws := n } := by
  obtain ⟨n, hn⟩ := bufGetOp_frame p i s
  refine ⟨(bufGetOp p i s).1, n, ?_⟩
  rw [exec_bufGet, hn]
  rfl

/-- Settles O18: a cell below the capacity and an index at or above it are both seen by `peek`, where they
have a value. -/
theorem bufGetResult : Obligations.BufGetResult := by
  intro s p i
  refine ⟨fun b hi hb => ?_, fun hi => ?_, fun _ _ => exec_bufGet_some_byte s p i⟩
  · exact exec_bufGet_of_peek ((peek_of_lt hi).trans hb)
  · exact exec_bufGet_of_peek (peek_of_le hi)

/-! ### `PKT.GET` (R143) -/

theorem exec_pktGet (p : PacketId) (i : Nat) (s : State) :
    exec (.pktGet p i) s = .next (answer (.byte (pktGetOp p i s).1) (pktGetOp p i s).2) := rfl

theorem exec_pktGet_of_lt {s : State} {p : PacketId} {i : Nat}
    (h : i < (s.pkt p).frameLength.toNat) : exec (.pktGet p i) s = exec (.bufGet p i) s := by
  obtain ⟨_, hget⟩ | ⟨hle, _⟩ := pktGetOp_cases p i s
  · rw [exec_pktGet, hget, exec_bufGet]
  · exact absurd h (Nat.not_lt.mpr hle)

theorem exec_pktGet_of_le {s : State} {p : PacketId} {i : Nat}
    (h : (s.pkt p).frameLength.toNat ≤ i) :
    exec (.pktGet p i) s = .next (answer (.byte 0x00) (record p .frameLengthExceeded s)) := by
  obtain ⟨hlt, _⟩ | ⟨_, hget⟩ := pktGetOp_cases p i s
  · exact absurd hlt (Nat.not_lt.mpr h)
  · rw [exec_pktGet, hget]

/-- Settles O20: below the frame length by what `BUF.GET` answers, at or above it by the recorded code. -/
theorem pktGetResult : Obligations.PktGetResult := by
  intro s p i
  refine ⟨exec_pktGet_of_lt, fun b hi hb => ?_, fun hi _ => ?_, exec_pktGet_of_le⟩
  · exact (exec_pktGet_of_lt hi).trans (exec_bufGet_of_peek hb)
  · rw [exec_pktGet_of_lt hi]
    exact exec_bufGet_some_byte s p i

/-! ### The packet's registers (R146, R147, R151 to R153) -/

theorem isError_eq_decide (k : Packet) : k.isError = decide (k.errorCode ≠ .noError) :=
  (decide_not ..).symm

theorem exec_pktLenMsb (p : PacketId) (s : State) :
    exec (.pktLenMsb p) s = .next (answer (.byte (halfMsb (s.pkt p).frameLength)) s) := rfl

theorem exec_pktLenLsb (p : PacketId) (s : State) :
    exec (.pktLenLsb p) s = .next (answer (.byte (halfLsb (s.pkt p).frameLength)) s) := rfl

theorem exec_pktIsError (p : PacketId) (s : State) :
    exec (.pktIsError p) s = .next (answer (.flag (s.pkt p).isError) s) := rfl

theorem exec_pktErrorCode (p : PacketId) (s : State) :
    exec (.pktErrorCode p) s = .next (answer (.code (s.pkt p).errorCode) s) := rfl

theorem exec_pktReset (p : PacketId) (s : State) :
    exec (.pktReset p) s = .next (answer .none (packetReset p s)) := rfl

/-- Settles O23: each read answers its register, the length's two bytes by division and remainder. -/
theorem pktRegisterReads : Obligations.PktRegisterReads := by
  intro s p
  refine ⟨?_, ?_, ?_, exec_pktErrorCode p s⟩
  · rw [exec_pktLenMsb, halfMsb_eq_ofNat]
    rfl
  · rw [exec_pktLenLsb, halfLsb_eq_ofNat]
    rfl
  · rw [exec_pktIsError, isError_eq_decide]
    rfl

/-- Settles O26: the operation is the reset of the packet's three registers, with no result. -/
theorem pktResetResult : Obligations.PktResetResult :=
  fun s p => exec_pktReset p s

end Sys2Proof.Machine

/-! O33, O30, O31 and O32, the decoder's rows of a byte step (R173 to R175, R177 to R183).

For each row two rules: under which conditions R109 selects it, and what it leaves where its condition
holds, in the names of the model's updates. The settling theorems read off the fields. -/

namespace Sys2Proof.Machine

open Host (Outcome)

section
variable {s : State} {f : Flight} {b x : Byte} {q : List Byte}

/-! ### What the conditions of the rows say -/

theorem escapesHere_iff :
    s.escapesHere = true ↔
      s.cfg.escapedMode = true ∧ s.dec.escaping = false ∧ 0 < s.dec.idx := by
  simp [State.escapesHere, and_assoc]

theorem available_eq_zero_iff : s.available = 0 ↔ s.rxq = [] := List.length_eq_zero_iff

theorem startByte_ne_escapeByte : startByte ≠ escapeByte := by decide

/-! ### The row that the cursor selects (R109, orders 3 and 4) -/

theorem dispatchRow_startByte (hidx : s.dec.idx = 0) : dispatchRow startByte s = .decSof := by
  simp [dispatchRow, hidx]

theorem dispatchRow_ne_startByte (hidx : s.dec.idx = 0) (hb : b ≠ startByte) :
    dispatchRow b s = .decErrNostart b := by
  simp [dispatchRow, hidx, hb]

theorem dispatchRow_idx_one (hidx : s.dec.idx = 1) : dispatchRow b s = .decLenMsb b := by
  simp [dispatchRow, hidx]

theorem dispatchRow_idx_two (hidx : s.dec.idx = 2) : dispatchRow b s = .decLenLsb b := by
  simp [dispatchRow, hidx]

/-- In the frame, the three tests on a smaller cursor fall through (R109). -/
theorem dispatchRow_of_three_le (hidx : 3 ≤ s.dec.idx) :
    dispatchRow b s =
      if s.cfg.mIn < s.dec.idx then .decErrOverlen b
      else if s.dec.idx = checksumOffset s.inp.frameLength then
        if s.dec.csum = 0xFF then .decCkOk b else .decCkFail b
      else .decStore b := by
  have h0 : s.dec.idx ≠ 0 := by omega
  have h1 : s.dec.idx ≠ 1 := by omega
  have h2 : s.dec.idx ≠ 2 := by omega
  rw [dispatchRow, if_neg h0, if_neg h1, if_neg h2]

theorem dispatchRow_overlen (hidx : 3 ≤ s.dec.idx) (hover : s.cfg.mIn < s.dec.idx) :
    dispatchRow b s = .decErrOverlen b := by
  rw [dispatchRow_of_three_le hidx, if_pos hover]

theorem sumRow_of_three_le (hidx : 3 ≤ s.dec.idx) : sumRow b s = .decCsum b := if_pos hidx

/-! ### The row that a raw byte selects (R109, orders 1 and 2) -/

theorem selectRow_of_escaping (ho : f.order = .escape) (hmode : s.cfg.escapedMode = true)
    (hesc : s.dec.escaping = true) : selectRow f s = .decUnesc f.byte := by
  simp [selectRow, ho, hmode, hesc]

theorem selectRow_escapeByte (ho : f.order = .escape) (hhere : s.escapesHere = true)
    (hb : f.byte = escapeByte) :
    selectRow f s = if s.available = 0 then .decEscSuspend else .decEscInline := by
  obtain ⟨hmode, hesc, hidx⟩ := escapesHere_iff.mp hhere
  simp [selectRow, ho, hmode, hesc, hidx, hb]

theorem selectRow_startByte (ho : f.order = .escape) (hhere : s.escapesHere = true)
    (hb : f.byte = startByte) (hraw : f.fromEscape = false) : selectRow f s = .decErrStart := by
  obtain ⟨hmode, hesc, hidx⟩ := escapesHere_iff.mp hhere
  simp [selectRow, ho, hmode, hesc, hidx, hb, hraw, startByte_ne_escapeByte]

/-! ### What each row leaves where its condition holds -/

theorem exec_decUnesc (hmode : s.cfg.escapedMode = true) (hesc : s.dec.escaping = true) :
    exec (.decUnesc b) s =
      .next (flyTo (escapeXor b) true .sum { s with dec := { s.dec with escaping := false } }) :=
  congrArg Outcome.next (if_pos ⟨hmode, hesc⟩)

theorem exec_decEscInline (hhere : s.escapesHere = true) (hq : s.rxq = x :: q) :
    exec .decEscInline s = .next (flyTo (escapeXor x) true .sum { s with rxq := q }) := by
  have heff : decEscInline s = flyTo (escapeXor x) true .sum { s with rxq := q } := by
    simp only [decEscInline, hhere, hq]
  exact congrArg Outcome.next heff

theorem exec_decEscSuspend (hhere : s.escapesHere = true) (hq : s.rxq = []) :
    exec .decEscSuspend s =
      .next (stopCall { s with dec := { s.dec with escaping := true } }) :=
  congrArg Outcome.next (if_pos ⟨hhere, available_eq_zero_iff.mpr hq⟩)

theorem exec_decErrStart (hmode : s.cfg.escapedMode = true) (hraw : s.fromEscape = false)
    (hidx : 0 < s.dec.idx) :
    exec .decErrStart s = .next (decoderError .unexpectedPacketStart s) :=
  congrArg Outcome.next (if_pos ⟨hmode, Bool.eq_false_iff.mp hraw, hidx⟩)

theorem exec_decCsum (hidx : 3 ≤ s.dec.idx) :
    exec (.decCsum b) s =
      .next (flyTo b s.fromEscape .dispatch { s with dec := { s.dec with csum := s.dec.csum + b } }) :=
  congrArg Outcome.next (if_pos hidx)

theorem exec_decSof (hidx : s.dec.idx = 0) : exec .decSof s = .next (landed (s.setIdx 1)) :=
  congrArg Outcome.next (if_pos hidx)

theorem exec_decErrNostart (hidx : s.dec.idx = 0) (hb : b ≠ startByte) :
    exec (.decErrNostart b) s = .next (decoderError .packetIncomplete s) :=
  congrArg Outcome.next (if_pos ⟨hidx, hb⟩)

theorem exec_decLenMsb (hidx : s.dec.idx = 1) :
    exec (.decLenMsb b) s =
      .next (landed ((s.setInLength (withMsb b s.inp.frameLength)).setIdx 2)) :=
  congrArg Outcome.next (if_pos hidx)

theorem exec_decLenLsb (hidx : s.dec.idx = 2) :
    exec (.decLenLsb b) s =
      .next (landed ((s.setInLength (withLsb b s.inp.frameLength)).setIdx 3)) :=
  congrArg Outcome.next (if_pos hidx)

theorem exec_decErrOverlen (hidx : 3 ≤ s.dec.idx) (hover : s.cfg.mIn < s.dec.idx) :
    exec (.decErrOverlen b) s = .next (decoderError .maxFrameLengthExceeded s) :=
  congrArg Outcome.next (if_pos ⟨hidx, hover⟩)

end

/-! ### The updates field by field -/

/-- A decoder error is a code on `IN` and the end of the call, and nothing else (R291). -/
theorem decoderError_eq (c : ErrorCode) (s : State) :
    decoderError c s =
      { s with inp := { s.inp with errorCode := c }, call := .idle, flight := none } := rfl

/-- The sum of two bytes is taken modulo 256 (R178). -/
theorem add_bytes_eq_ofNat (a b : Byte) : a + b = BitVec.ofNat 8 ((a.toNat + b.toNat) % 256) :=
  BitVec.eq_of_toNat_eq (by rw [BitVec.toNat_add, BitVec.toNat_ofNat, Nat.mod_mod])

/-! ### The rows of the stream decoder -/

/-- Settles O33, by the arithmetic of the two bytes of a length. -/
theorem lengthRows : Obligations.LengthRows := by
  intro s b
  refine ⟨fun hidx => ⟨dispatchRow_idx_one hidx, ?_⟩, fun hidx => ⟨dispatchRow_idx_two hidx, ?_⟩⟩
  · rw [exec_decLenMsb hidx, withMsb_eq_ofNat]
    rfl
  · rw [exec_decLenLsb hidx, withLsb_eq_ofNat]
    rfl

/-- Settles O30: a pending escape decides first, and without one `RXQ` tells the other two rows apart. -/
theorem escapeRemoverRows : Obligations.EscapeRemoverRows := by
  intro s r x q hmode
  have hhere (hesc : s.dec.escaping = false) (hidx : 0 < s.dec.idx) : s.escapesHere = true :=
    escapesHere_iff.mpr ⟨hmode, hesc, hidx⟩
  refine ⟨fun hesc => ⟨selectRow_of_escaping rfl hmode hesc, exec_decUnesc hmode hesc⟩,
    fun hesc hidx hq => ?_, fun hesc hidx hq => ?_⟩
  · have hsome : s.available ≠ 0 := by simp [available_eq_zero_iff, hq]
    exact ⟨(selectRow_escapeByte rfl (hhere hesc hidx) rfl).trans (if_neg hsome),
      exec_decEscInline (hhere hesc hidx) hq⟩
  · have hnone : s.available = 0 := available_eq_zero_iff.mpr hq
    exact ⟨(selectRow_escapeByte rfl (hhere hesc hidx) rfl).trans (if_pos hnone),
      exec_decEscSuspend (hhere hesc hidx) hq⟩

/-- Settles O31: the three rows run one update, `decoderError`, with their own codes. -/
theorem decoderErrorRows : Obligations.DecoderErrorRows := by
  intro s b
  simp only [← decoderError_eq]
  refine ⟨fun hmode hraw hidx => ⟨fun hesc => ?_, exec_decErrStart hmode hraw hidx⟩,
    fun hidx hb => ⟨dispatchRow_ne_startByte hidx hb, exec_decErrNostart hidx hb⟩,
    fun hidx hover => ⟨dispatchRow_overlen hidx hover, exec_decErrOverlen hidx hover⟩⟩
  exact selectRow_startByte rfl (escapesHere_iff.mpr ⟨hmode, hesc, hidx⟩) rfl rfl

/-- Settles O32: the checksum row by the byte's addition modulo 256, the start row by its update. -/
theorem sumAndStartRows : Obligations.SumAndStartRows := by
  intro s b
  refine ⟨fun hidx => ⟨sumRow_of_three_le hidx, ?_⟩,
    fun hidx => ⟨dispatchRow_startByte hidx, exec_decSof hidx⟩⟩
  rw [exec_decCsum hidx, add_bytes_eq_ofNat]
  rfl

end Sys2Proof.Machine

/-! O45 and O46, the encoder's START, put and length rows (R211 to R213).

For each row one rule: what it leaves where its condition holds, in the names of the model's updates.
The settling theorems turn the conditions and the length's bytes into those of the statements. -/

namespace Sys2Proof.Machine

section
variable {s : State} {t : EncTemps} {b e : Byte}

/-! ### Where byte-stuffing applies (R8, R212) -/

theorem isReserved_iff : isReserved b = true ↔ b = 0x7E ∨ b = 0x7D ∨ b = 0x11 ∨ b = 0x13 := by
  simp only [isReserved, startByte, escapeByte, xonByte, xoffByte, Bool.or_eq_true, beq_iff_eq,
    or_assoc]

theorem stuffs_iff :
    s.stuffs b = true ↔
      s.cfg.escapedMode = true ∧ (b = 0x7E ∨ b = 0x7D ∨ b = 0x11 ∨ b = 0x13) := by
  rw [State.stuffs, Bool.and_eq_true, isReserved_iff]

theorem stuffs_eq_false_iff :
    s.stuffs b = false ↔
      s.cfg.escapedMode = false ∨ (b ≠ 0x7E ∧ b ≠ 0x7D ∧ b ≠ 0x11 ∧ b ≠ 0x13) := by
  rw [← Bool.not_eq_true, stuffs_iff, not_and_or, Bool.not_eq_true]
  simp only [not_or]

/-- De-escaping undoes escaping (R105). -/
@[simp] theorem escapeXor_escapeXor (b : Byte) : escapeXor (escapeXor b) = b := by
  rw [escapeXor, escapeXor, BitVec.xor_assoc, BitVec.xor_self, BitVec.xor_zero]

/-! ### What each row leaves where its condition holds -/

theorem exec_encPutRaw (hraw : s.stuffs b = false) :
    exec (.encPutRaw b) s = .next (writeByte b s) :=
  congrArg Host.Outcome.next (if_neg (Bool.eq_false_iff.mp hraw))

theorem exec_encPutEsc (hesc : s.stuffs (escapeXor e) = true) :
    exec (.encPutEsc e) s = .next (writeByte e (writeByte escapeByte s)) :=
  congrArg Host.Outcome.next (if_pos hesc)

theorem exec_encStart (hcall : s.call = .serialize t) (hstage : t.stage = .start) :
    exec .encStart s = .next ((writeByte startByte s).setEnc { t with stage := .lenMsb }) := by
  have heff : encStart s = (writeByte startByte s).setEnc { t with stage := .lenMsb } := by
    simp only [encStart, hcall, hstage, if_true]
  exact congrArg Host.Outcome.next heff

theorem exec_encLenMsb (hcall : s.call = .serialize t) (hstage : t.stage = .lenMsb) :
    exec .encLenMsb s =
      .next ((encPut (halfMsb s.out.frameLength) s).setEnc { t with stage := .lenLsb }) := by
  have heff : encLenMsb s =
      (encPut (halfMsb s.out.frameLength) s).setEnc { t with stage := .lenLsb } := by
    simp only [encLenMsb, hcall, hstage, if_true]
  exact congrArg Host.Outcome.next heff

theorem exec_encLenLsb (hcall : s.call = .serialize t) (hstage : t.stage = .lenLsb) :
    exec .encLenLsb s =
      .next ((encPut (halfLsb s.out.frameLength) s).setEnc { stage := .data, sum := 0, i := 0 }) := by
  have heff : encLenLsb s =
      (encPut (halfLsb s.out.frameLength) s).setEnc { stage := .data, sum := 0, i := 0 } := by
    simp only [encLenLsb, hcall, hstage, if_true]
  exact congrArg Host.Outcome.next heff

/-! ### The row that the stage selects (R210) -/

theorem encoderRow_start (hstage : t.stage = .start) : encoderRow t s = .encStart := by
  simp only [encoderRow, hstage]

theorem encoderRow_lenMsb (hstage : t.stage = .lenMsb) : encoderRow t s = .encLenMsb := by
  simp only [encoderRow, hstage]

theorem encoderRow_lenLsb (hstage : t.stage = .lenLsb) : encoderRow t s = .encLenLsb := by
  simp only [encoderRow, hstage]

end

/-! ### Bytes written to `TXQ` -/

/-- Two writes append their bytes in order (R75). -/
theorem writeByte_writeByte (b c : Byte) (s : State) :
    writeByte c (writeByte b s) = { s with txq := s.txq ++ [b, c] } := by
  simp only [writeByte, List.append_assoc, List.singleton_append]

/-! ### The rows of the encoder -/

/-- Settles O45: the two put rows by the two sides of `State.stuffs`, as the image of `b` is de-escaped
to `b`. -/
theorem putRows : Obligations.PutRows := by
  intro s t b
  refine ⟨fun hcall hstage => ⟨encoderRow_start hstage, exec_encStart hcall hstage⟩,
    fun hraw => ⟨rfl, exec_encPutRaw (stuffs_eq_false_iff.mpr hraw)⟩,
    fun hmode hres => ⟨rfl, ?_⟩⟩
  have hesc : s.stuffs (escapeXor (escapeXor b)) = true := by
    rw [escapeXor_escapeXor]
    exact stuffs_iff.mpr ⟨hmode, hres⟩
  exact (exec_encPutEsc hesc).trans (congrArg Host.Outcome.next (writeByte_writeByte _ _ s))

/-- Settles O46, by the bytes of `put` (`encPut_eq`) and the arithmetic of the two bytes of a length. -/
theorem lengthEmissionRows : Obligations.LengthEmissionRows := by
  intro s t hcall
  refine ⟨fun hstage => ⟨encoderRow_lenMsb hstage, ?_⟩,
    fun hstage => ⟨encoderRow_lenLsb hstage, ?_⟩⟩
  · rw [exec_encLenMsb hcall hstage, encPut_eq, halfMsb_eq_ofNat]
    rfl
  · rw [exec_encLenLsb hcall hstage, encPut_eq, halfLsb_eq_ofNat]
    rfl

end Sys2Proof.Machine

/-! O1, O2 and O3, the units of the received wire stream (R104, R105, R114, R124).

For each of the decoder's tables one rule that says what a row of it encodes to; decoding and encoding
agree because both sides go through these rules. -/

namespace Sys2Proof.Machine

/-! ### The two ways a unit is read -/

theorem decode_raw {c : WireContext} {b : Byte} (rest : List Byte)
    (h : ¬ (c.escapes = true ∧ b = escapeByte)) :
    decode c (b :: rest) = .ok (singleByteRow c b, rest) := by
  unfold decode
  exact if_neg (by simpa using h)

theorem decode_pair {c : WireContext} (x : Byte) (rest : List Byte) (h : c.escapes = true) :
    decode c (escapeByte :: x :: rest) = .ok (escapeRow x, rest) := by
  simp [decode, h]

theorem decode_lone_escape {c : WireContext} (h : c.escapes = true) :
    decode c [escapeByte] = .ok (.escape, []) := by
  simp [decode, h]

/-! ### What the rows of the tables encode to -/

/-- `i` is a well-formed unit of the wire stream whose encoding is `bytes`. -/
def Instr.isUnitOf (i : Instr) (bytes : List Byte) : Prop :=
  i.isWireUnit = true ∧ i.wellFormed = true ∧ encode i = some bytes

theorem isUnitOf_of_ite {b c : Byte} {i j : Instr} {r : Option Instr} (hj : Instr.isUnitOf j [c])
    (hr : r = some i → Instr.isUnitOf i [b]) (h : (if b = c then some j else r) = some i) :
    Instr.isUnitOf i [b] := by
  split at h
  · next hbc => cases h; exact hbc ▸ hj
  · exact hr h

/-- Each of the thirteen codes of R114 is the encoding of its row. -/
theorem frameTypeRow_isUnitOf {b : Byte} {i : Instr} :
    frameTypeRow b = some i → Instr.isUnitOf i [b] := by
  unfold frameTypeRow
  iterate 13 refine isUnitOf_of_ite ⟨rfl, rfl, rfl⟩ ?_
  exact nofun

theorem byteClassRow_isUnitOf (b : Byte) : Instr.isUnitOf (byteClassRow b) [b] := by
  unfold byteClassRow
  split_ifs with hstart hescape hxon hxoff
  · exact ⟨rfl, rfl, by rw [hstart]; rfl⟩
  · exact ⟨rfl, rfl, by rw [hescape]; rfl⟩
  · exact ⟨rfl, rfl, by rw [hxon]; rfl⟩
  · exact ⟨rfl, rfl, by rw [hxoff]; rfl⟩
  · exact ⟨rfl, by simp [Instr.wellFormed, isReserved, hstart, hescape, hxon, hxoff], rfl⟩

theorem singleByteRow_isUnitOf (c : WireContext) (b : Byte) :
    Instr.isUnitOf (singleByteRow c b) [b] := by
  unfold singleByteRow
  split
  next i _ hrow => exact frameTypeRow_isUnitOf hrow
  next => exact byteClassRow_isUnitOf b

/-- The four canonical second bytes are those that de-escape to a reserved byte (R105). -/
theorem isEscapeImage_iff (x : Byte) :
    isEscapeImage x = true ↔ x = 0x5E ∨ x = 0x5D ∨ x = 0x31 ∨ x = 0x33 := by
  have himage (r : Byte) : escapeXor x = r ↔ x = escapeXor r :=
    ⟨fun h => by rw [← h, escapeXor_escapeXor], fun h => by rw [h, escapeXor_escapeXor]⟩
  rw [isEscapeImage, isReserved_iff, himage, himage, himage, himage]
  rfl

theorem escapeRow_isUnitOf (x : Byte) : Instr.isUnitOf (escapeRow x) [escapeByte, x] := by
  unfold escapeRow
  split_ifs with hstart hescape hxon hxoff
  · exact ⟨rfl, rfl, by rw [hstart]; rfl⟩
  · exact ⟨rfl, rfl, by rw [hescape]; rfl⟩
  · exact ⟨rfl, rfl, by rw [hxon]; rfl⟩
  · exact ⟨rfl, rfl, by rw [hxoff]; rfl⟩
  · have himage : isEscapeImage x = false := by
      rw [← Bool.not_eq_true, isEscapeImage_iff]
      simp only [not_or]
      exact ⟨hstart, hescape, hxon, hxoff⟩
    exact ⟨rfl, by simp [Instr.wellFormed, himage], rfl⟩

/-! ### The rows that well-formed operands select -/

theorem singleByteRow_inFrame (b : Byte) : singleByteRow .inFrame b = byteClassRow b := rfl

theorem byteClassRow_of_unreserved {b : Byte} (h : isReserved b = false) :
    byteClassRow b = .data b := by
  simp only [isReserved, Bool.or_eq_false_iff, beq_eq_false_iff_ne] at h
  obtain ⟨⟨⟨hstart, hescape⟩, hxon⟩, hxoff⟩ := h
  rw [byteClassRow, if_neg hstart, if_neg hescape, if_neg hxon, if_neg hxoff]

theorem escapeRow_of_not_image {x : Byte} (h : isEscapeImage x = false) :
    escapeRow x = .escGeneric x := by
  rw [← Bool.not_eq_true, isEscapeImage_iff] at h
  obtain ⟨hstart, hescape, hxon, hxoff⟩ : x ≠ 0x5E ∧ x ≠ 0x5D ∧ x ≠ 0x31 ∧ x ≠ 0x33 := by
    simpa only [not_or] using h
  rw [escapeRow, if_neg hstart, if_neg hescape, if_neg hxon, if_neg hxoff]

/-- Settles O1, by cases on the unit: a raw byte that is no ESCAPE and an escape pair are read whatever
follows, a lone ESCAPE at the end of the queue. -/
theorem wireUnitDecodeEncode : Obligations.WireUnitDecodeEncode := by
  intro i rest hunit hwf hlast
  cases i with
  | data v =>
    have hv : isReserved v = false := by simpa [Instr.wellFormed] using hwf
    have hne : v ≠ escapeByte := by rintro rfl; exact absurd hv (by decide)
    refine ⟨[v], rfl, (decode_raw rest fun h => hne h.2).trans ?_⟩
    rw [show wireContextOf (.data v) = .inFrame from rfl, singleByteRow_inFrame,
      byteClassRow_of_unreserved hv]
  | escape =>
    rw [hlast rfl]
    exact ⟨_, rfl, decode_lone_escape rfl⟩
  | escGeneric x =>
    have hx : isEscapeImage x = false := by simpa [Instr.wellFormed] using hwf
    exact ⟨_, rfl, (decode_pair x rest rfl).trans (by rw [escapeRow_of_not_image hx])⟩
  | escStart | escEscape | escXon | escXoff => exact ⟨_, rfl, decode_pair _ rest rfl⟩
  | start | xon | xoff | ftAtCommandQueued | ftExplicitAddressing | ftExplicitRx | ftIoRx
  | ftNodeId => exact ⟨_, rfl, decode_raw rest (by decide)⟩
  | ftAtCommand f | ftTransmitRequest f | ftRemoteAtCommand f | ftAtCommandResponse f
  | ftModemStatus f | ftTxStatus f | ftRxReceived f | ftRemoteAtCommandResponse f =>
    cases f with
    | wire => exact ⟨_, rfl, decode_raw rest (by decide)⟩
    | _ => cases hunit
  | _ => cases hunit

/-- Settles O2: a pair where an ESCAPE is recognised with a byte after it, a single byte everywhere else. -/
theorem wireUnitEncodeDecode : Obligations.WireUnitEncodeDecode := by
  intro c b queue
  by_cases hesc : c.escapes = true ∧ b = escapeByte
  · obtain ⟨hc, rfl⟩ := hesc
    cases queue with
    | nil => exact ⟨_, _, [escapeByte], decode_lone_escape hc, rfl, rfl, rfl, rfl, by simp⟩
    | cons x rest =>
      obtain ⟨hunit, hwf, henc⟩ := escapeRow_isUnitOf x
      exact ⟨_, rest, [escapeByte, x], decode_pair x rest hc, hunit, hwf, henc, rfl,
        by simp [hc, escapeByte]⟩
  · obtain ⟨hunit, hwf, henc⟩ := singleByteRow_isUnitOf c b
    exact ⟨_, queue, [b], decode_raw queue hesc, hunit, hwf, henc, rfl,
      by
      refine ⟨nofun, fun h => absurd ⟨h.1, h.2.1⟩ hesc⟩⟩

/-- Settles O3: each word is laid out as its wire bytes and read by the decoder. -/
theorem tableWordsDecode : Obligations.TableWordsDecode :=
  ⟨rfl, rfl, rfl, rfl, rfl, rfl, rfl, rfl, rfl, rfl, rfl, rfl⟩

end Sys2Proof.Machine

/-! O5, O6, O7, O8, O9, O10, O17, O27 and O28: the step, reset and the plain host operations (R10, R11, R35,
R36, R39, R40, R140, R154, R171, R172).

One rule for each kind of turn, and one for what the block does in each call; the statements combine a
turn with a call. -/

namespace Sys2Proof.Machine

open Host (Outcome)

section
variable {s : State} {ts : List Turn} {i : Instr} {t : State}

/-! ### The turns of the schedule (R11) -/

theorem step_turns_nil (h : s.turns = []) : step s = blockStep false s := by
  simp only [step, h]

theorem step_unit_turn (h : s.turns = .unit :: ts) :
    step s = blockStep false { s with turns := ts } := by
  simp only [step, h]

theorem step_row_turn (h : s.turns = .row :: ts) :
    step s = blockStep true { s with turns := ts } := by
  simp only [step, h]

theorem step_arrive_turn {b : Byte} (h : s.turns = .arrive b :: ts) :
    step s = .next (arriveByte b { s with turns := ts }) := by
  simp only [step, h]

theorem step_send_turn (h : s.turns = .send :: ts) :
    step s = .next (sendByte { s with turns := ts }) := by
  simp only [step, h]

theorem sendByte_nil (h : s.txq = []) : sendByte s = s := by
  simp only [sendByte, h]

theorem sendByte_cons {b : Byte} {q : List Byte} (h : s.txq = b :: q) :
    sendByte s = { s with txq := q, sent := s.sent ++ [b] } := by
  simp only [sendByte, h]

/-! ### What the block does in each call (R11, R171, R172, R210) -/

theorem blockStep_of_run {fine : Bool} (h : nextInstr fine s = .run i t) :
    blockStep fine s = exec i t := by
  rw [blockStep, h]
  rfl

theorem blockStep_entry {fine : Bool} (hcall : s.call = .entry) :
    blockStep fine s = exec (entryRow s) s :=
  blockStep_of_run (by simp only [nextInstr, hcall])

theorem blockStep_flight {fine : Bool} {f : Flight} (hcall : s.call = .drain)
    (hflight : s.flight = some f) : blockStep fine s = exec (selectRow f s) s :=
  blockStep_of_run (by simp only [nextInstr, hcall, hflight])

theorem blockStep_row (hcall : s.call = .drain) (hflight : s.flight = none) :
    blockStep true s = exec .decFetch s :=
  blockStep_of_run (by simp only [nextInstr, hcall, hflight, if_true])

theorem blockStep_unit {rest : List Byte} (hcall : s.call = .drain) (hflight : s.flight = none)
    (hdecode : decode s.wireContext s.rxq = .ok (i, rest)) :
    blockStep false s = exec i { s with rxq := rest } :=
  blockStep_of_run (by simp [nextInstr, hcall, hflight, fetchUnit, hdecode])

theorem blockStep_drained (hcall : s.call = .drain) (hflight : s.flight = none) (hq : s.rxq = []) :
    blockStep false s = exec .decFetch s :=
  blockStep_of_run (by simp [nextInstr, hcall, hflight, fetchUnit, hq, decode])

theorem blockStep_serialize {fine : Bool} {e : EncTemps} (hcall : s.call = .serialize e) :
    blockStep fine s = exec (encoderRow e s) s :=
  blockStep_of_run (by simp only [nextInstr, hcall])

theorem blockStep_idle_nil {fine : Bool} (hcall : s.call = .idle) (hq : s.hostq = []) :
    blockStep fine s = .next s := by
  simp only [blockStep, nextInstr, hcall, fetchHostOp, hq, runFetched]

theorem blockStep_idle_hostOp {fine : Bool} {rest : List Instr} (hcall : s.call = .idle)
    (hq : s.hostq = i :: rest) (hi : i.isHostOp = true) :
    blockStep fine s = exec i { s with hostq := rest } :=
  blockStep_of_run (by simp only [nextInstr, hcall, fetchHostOp, hq, hi, if_true])

theorem blockStep_idle_refused {fine : Bool} {rest : List Instr} (hcall : s.call = .idle)
    (hq : s.hostq = i :: rest) (hi : i.isHostOp = false) :
    blockStep fine s = .refused .notHostOperation := by
  simp [blockStep, nextInstr, hcall, fetchHostOp, hq, hi, runFetched]

end

/-- Settles O5: both schedules give the block its unit move. -/
theorem stepRunsDecodedUnit : Obligations.StepRunsDecodedUnit := by
  intro s i rest ts hcall hflight hdecode
  exact ⟨fun h => (step_turns_nil h).trans (blockStep_unit hcall hflight hdecode),
    fun h => (step_unit_turn h).trans (blockStep_unit hcall hflight hdecode)⟩

/-- Settles O6, by the block's move in each call. -/
theorem stepRunsSelectedRow : Obligations.StepRunsSelectedRow := by
  intro s f e ts
  exact ⟨fun h hcall => (step_turns_nil h).trans (blockStep_entry hcall),
    fun h hcall hf => (step_turns_nil h).trans (blockStep_flight hcall hf),
    fun h hcall hf hq => (step_turns_nil h).trans (blockStep_drained hcall hf hq),
    fun h hcall => (step_turns_nil h).trans (blockStep_serialize hcall),
    fun h hcall hf => (step_row_turn h).trans (blockStep_row hcall hf)⟩

/-- Settles O7, by the three forms of the host's queue. -/
theorem stepRunsHostOperation : Obligations.StepRunsHostOperation := by
  intro s i rest h hcall
  exact ⟨fun hq => (step_turns_nil h).trans (blockStep_idle_nil hcall hq),
    fun hq hi => (step_turns_nil h).trans (blockStep_idle_hostOp hcall hq hi),
    fun hq hi => (step_turns_nil h).trans (blockStep_idle_refused hcall hq hi)⟩

/-- Settles O8, by the two sides of a send turn. -/
theorem transportTurns : Obligations.TransportTurns := by
  intro s b q ts
  refine ⟨step_arrive_turn, fun h hq => ?_, fun h hq => ?_⟩
  · rw [step_send_turn h, sendByte_cons (s := { s with turns := ts }) hq]
  · rw [step_send_turn h, sendByte_nil (s := { s with turns := ts }) hq]

/-- Settles O9: every field is read off the definition of the construction. -/
theorem resetValues : Obligations.ResetValues :=
  ⟨fun _ => rfl, rfl, rfl, rfl, rfl, rfl⟩

/-- The cursor of construction is within its bounds, whatever the parameters are. -/
theorem construct_inv {c : Config} (h : c.wf) : (State.construct c).inv :=
  ⟨⟨List.Pairwise.nil, nofun, h.1⟩, ⟨List.Pairwise.nil, nofun, h.2⟩, nofun, Nat.zero_le _⟩

/-- Settles O10: construction with empty stores meets the invariant where `C_INIT` is within both ceilings. -/
theorem constructionKeepsInvariant : Obligations.ConstructionKeepsInvariant :=
  ⟨fun _ => construct_inv, construct_inv (by decide)⟩

theorem exec_bufEnsure (p : PacketId) (size : Nat) (s : State) :
    exec (.bufEnsure p size) s = .next (answer .none (bufEnsureOp p size s)) := rfl

/-- Settles O17, by the two cases of `BUF.ENSURE`. -/
theorem bufEnsureResult : Obligations.BufEnsureResult := by
  intro s p size
  rw [exec_bufEnsure]
  obtain ⟨hcap, hmax, he⟩ | ⟨hno, he⟩ := bufEnsureOp_cases p size s
  · exact ⟨fun _ => by rw [he]; rfl, fun h => absurd ⟨hcap, hmax⟩ h⟩
  · exact ⟨fun h => absurd h hno, fun _ => by rw [he]; rfl⟩

/-- Settles O27: each read answers its register. -/
theorem plainReads : Obligations.PlainReads :=
  fun _ _ => ⟨rfl, rfl, rfl⟩

/-- Settles O28: each operation is its update of the state. -/
theorem callOperations : Obligations.CallOperations :=
  fun _ => ⟨rfl, rfl, rfl⟩

end Sys2Proof.Machine

/-! O19, O21, O22, O25 and O35's store: the packet store under writes, and the frame that it holds (R142,
R144, R145, R150).

The writes go through one rule for a store below the ceiling; a frame is read cell by cell. -/

namespace Sys2Proof.Machine

open Host (Outcome)

/-! ### A packet with one cell stored (R142) -/

section
variable (k : Packet) (maxLen i : Nat) (v : Byte)

@[simp] theorem stored_read_same : (k.stored maxLen i v).buf.read i = some v :=
  memory_read_write_same k.buf i v

theorem stored_read_ne {j : Nat} (h : j ≠ i) :
    (k.stored maxLen i v).buf.read j = k.buf.read j :=
  memory_read_write_ne k.buf i j v h

theorem stored_cap_eq :
    (k.stored maxLen i v).cap = if k.cap ≤ i then min (i + 10) maxLen else k.cap := rfl

/-- A packet with another frame length. -/
def Packet.withLength (k : Packet) (len : Half) : Packet := { k with frameLength := len }

@[simp] theorem withLength_frameLength (len : Half) : (k.withLength len).frameLength = len := rfl
@[simp] theorem withLength_buf (len : Half) : (k.withLength len).buf = k.buf := rfl
@[simp] theorem withLength_cap (len : Half) : (k.withLength len).cap = k.cap := rfl
@[simp] theorem withLength_checksum (len : Half) : (k.withLength len).checksum = k.checksum := rfl
@[simp] theorem withLength_errorCode (len : Half) : (k.withLength len).errorCode = k.errorCode := rfl

@[simp] theorem stored_frameLength : (k.stored maxLen i v).frameLength = k.frameLength := rfl
@[simp] theorem stored_checksum : (k.stored maxLen i v).checksum = k.checksum := rfl
@[simp] theorem stored_errorCode : (k.stored maxLen i v).errorCode = k.errorCode := rfl

variable {maxLen i}

theorem lt_stored_cap (hi : i < maxLen) : i < (k.stored maxLen i v).cap := by
  rw [stored_cap_eq]
  split <;> omega

end

theorem exec_bufSet_of_le {s : State} {p : PacketId} {i : Nat} (v : Byte) (h : s.maxLen p ≤ i) :
    exec (.bufSet p i v) s = .next (answer (.failed .maxFrameLengthExceeded) s) := by
  show execBufSet p i v s = _
  obtain ⟨_, he⟩ | ⟨hlt, _⟩ := bufSetOp_cases p i v s
  · rw [execBufSet, he]
  · omega

theorem exec_bufSet_of_lt {s : State} {p : PacketId} {i : Nat} (v : Byte) (h : i < s.maxLen p) :
    exec (.bufSet p i v) s =
      .next (answer .ok (s.setPkt p ((s.pkt p).stored (s.maxLen p) i v))) := by
  show execBufSet p i v s = _
  obtain ⟨hle, _⟩ | ⟨_, he⟩ := bufSetOp_cases p i v s
  · omega
  · rw [execBufSet, he]

@[simp] theorem answer_pkt (r : HostResult) (s : State) (p : PacketId) :
    (answer r s).pkt p = s.pkt p := by cases p <;> rfl

@[simp] theorem answer_maxLen (r : HostResult) (s : State) (p : PacketId) :
    (answer r s).maxLen p = s.maxLen p := by cases p <;> rfl

/-- Settles O19: the packet stored is the one written at the index. -/
theorem bufSetResult : Obligations.BufSetResult := by
  intro s p i v
  refine ⟨exec_bufSet_of_le v, fun hi => ⟨_, exec_bufSet_of_lt v hi, ?_⟩⟩
  rw [answer_pkt, setPkt_pkt]
  exact ⟨stored_read_same .., fun j hj => stored_read_ne _ _ _ _ hj, stored_cap_eq ..,
    lt_stored_cap _ v hi, rfl, rfl⟩

/-! ### `PKT.SET` (R144) -/

theorem pktSetOp_of_le {p : PacketId} {i : Nat} {s : State} (v : Byte) (h : s.maxLen p ≤ i) :
    pktSetOp p i v s = record p .maxFrameLengthExceeded s := by
  obtain ⟨_, he⟩ | ⟨hlt, _⟩ | ⟨hlt, _⟩ := pktSetOp_cases p i v s
  · exact he
  all_goals omega

/-- Only the packet named and the count of free values differ. -/
def State.packetOnly (p : PacketId) (s t : State) : Prop :=
  t = { s.setPkt p (t.pkt p) with draws := t.draws }

theorem packetOnly_of_eq {p : PacketId} {s t : State} {k : Packet} {d : Nat}
    (h : t = { s.setPkt p k with draws := d }) : State.packetOnly p s t := by
  subst h
  cases p <;> rfl

theorem packetOnly_answer {p : PacketId} {s t : State} (h : State.packetOnly p s t) (r : HostResult) :
    answer r t = { s.setPkt p (t.pkt p) with result := r, draws := t.draws } :=
  congrArg (answer r) h

theorem pktSetOp_packetOnly (p : PacketId) (i : Nat) (v : Byte) (s : State) :
    State.packetOnly p s (pktSetOp p i v s) := by
  obtain ⟨_, _, h⟩ := pktSetOp_frame p i v s
  exact packetOnly_of_eq h

theorem pktSetEach_packetOnly (p : PacketId) (i : Nat) (bytes : List Byte) (s : State) :
    State.packetOnly p s (pktSetEach p i bytes s) := by
  obtain ⟨_, _, h⟩ := pktSetEach_frame p bytes i s
  exact packetOnly_of_eq h

@[simp] theorem pktSetOp_maxLen (p : PacketId) (i : Nat) (v : Byte) (s : State) :
    (pktSetOp p i v s).maxLen p = s.maxLen p := by
  rw [pktSetOp_packetOnly p i v s]
  cases p <;> rfl

/-- Below the ceiling the cell is stored; the length is the larger one where it fits 16 bits, and some
value where it does not (log 3). -/
theorem pktSetOp_of_lt {p : PacketId} {i : Nat} {s : State} (v : Byte) (h : i < s.maxLen p) :
    ∃ len, (pktSetOp p i v s).pkt p = ((s.pkt p).stored (s.maxLen p) i v).withLength len ∧
      (i + 1 < 65536 → len.toNat = max (s.pkt p).frameLength.toNat (i + 1) ∧
        (pktSetOp p i v s).draws = s.draws) := by
  obtain ⟨hle, _⟩ | ⟨_, hfit, he⟩ | ⟨_, hbig, he⟩ := pktSetOp_cases p i v s
  · omega
  · refine ⟨BitVec.ofNat 16 (max (s.pkt p).frameLength.toNat (i + 1)), ?_, fun _ => ⟨?_, ?_⟩⟩
    · rw [he, setPkt_pkt]; rfl
    · have hlen := (s.pkt p).frameLength.isLt
      rw [BitVec.toNat_ofNat, Nat.mod_eq_of_lt (by omega)]
    · rw [he, setPkt_draws]
  · exact ⟨Config.freeLength s.draws, by rw [he]; cases p <;> rfl, fun hfit => by omega⟩

theorem exec_pktSet (p : PacketId) (i : Nat) (v : Byte) (s : State) :
    exec (.pktSet p i v) s = .next (answer .none (pktSetOp p i v s)) := rfl

/-- Settles O21, by the two sides of the ceiling. -/
theorem pktSetResult : Obligations.PktSetResult := by
  intro s p i v
  rw [exec_pktSet]
  refine ⟨fun hi => by rw [pktSetOp_of_le v hi]; rfl, fun hi => ⟨_, rfl, ?_⟩⟩
  obtain ⟨len, hpkt, hfit⟩ := pktSetOp_of_lt v hi
  have hframe := packetOnly_answer (pktSetOp_packetOnly p i v s) .none
  rw [answer_pkt, answer_draws, hframe, hpkt]
  exact ⟨stored_read_same _ (s.maxLen p) .., fun j hj => stored_read_ne _ (s.maxLen p) _ _ hj,
    stored_cap_eq _ _ _ v, rfl, rfl, hfit, rfl⟩

/-! ### `PKT.SETN` (R145) -/

/-- What consecutive writes below the ceiling leave in the packet. -/
structure WroteBytes (p : PacketId) (i : Nat) (bytes : List Byte) (s t : State) : Prop where
  written : ∀ k, k < bytes.length → (t.pkt p).buf.read (i + k) = bytes[k]?
  others : ∀ j, j < i ∨ i + bytes.length ≤ j → (t.pkt p).buf.read j = (s.pkt p).buf.read j
  checksum : (t.pkt p).checksum = (s.pkt p).checksum
  errorCode : (t.pkt p).errorCode = (s.pkt p).errorCode
  frameLength : i + bytes.length < 65536 → (t.pkt p).frameLength.toNat =
    if bytes.length = 0 then (s.pkt p).frameLength.toNat
    else max (s.pkt p).frameLength.toNat (i + bytes.length)
  draws : i + bytes.length < 65536 → t.draws = s.draws
  cap : (s.pkt p).cap ≤ (t.pkt p).cap
  within : ∀ k, k < bytes.length → i + k < (t.pkt p).cap

theorem pktSetEach_wroteBytes {p : PacketId} (bytes : List Byte) {i : Nat} {s : State}
    (h : i + bytes.length ≤ s.maxLen p) : WroteBytes p i bytes s (pktSetEach p i bytes s) := by
  induction bytes generalizing i s with
  | nil => exact ⟨nofun, fun _ _ => rfl, rfl, rfl, fun _ => rfl, fun _ => rfl, le_rfl, nofun⟩
  | cons b rest ih =>
    rw [List.length_cons] at h
    obtain ⟨len, hpkt, hfit⟩ := pktSetOp_of_lt (p := p) (i := i) (s := s) b (by omega)
    obtain ⟨hwritten, hothers, hck, herr, hlen, hd, hcap, hwithin⟩ :=
      ih (i := i + 1) (s := pktSetOp p i b s) (by rw [pktSetOp_maxLen]; omega)
    rw [hpkt] at hothers hck herr hlen hcap
    have hread (j : Nat) (hj : j < i + 1 ∨ i + 1 + rest.length ≤ j) :
        ((pktSetEach p i (b :: rest) s).pkt p).buf.read j =
          ((s.pkt p).stored (s.maxLen p) i b).buf.read j := hothers j hj
    have hgrown := stored_cap (k := s.pkt p) (maxLen := s.maxLen p) (i := i) b (by omega)
    refine ⟨fun k hk => ?_, fun j hj => ?_, hck, herr, fun hlt => ?_, fun hlt => ?_,
      hgrown.trans hcap, fun k hk => ?_⟩
    · cases k with
      | zero => exact (hread i (by omega)).trans (stored_read_same ..)
      | succ k =>
        rw [List.getElem?_cons_succ, show i + (k + 1) = i + 1 + k by omega]
        exact hwritten k (Nat.lt_of_succ_lt_succ hk)
    · rw [List.length_cons] at hj
      exact (hread j (by omega)).trans (stored_read_ne _ _ _ _ (by omega))
    · rw [List.length_cons] at hlt
      obtain ⟨hlen', _⟩ := hfit (by omega)
      rw [pktSetEach, hlen (by omega), List.length_cons, if_neg (Nat.succ_ne_zero _)]
      simp only [withLength_frameLength, hlen']
      split <;> omega
    · rw [List.length_cons] at hlt
      exact (hd (by omega)).trans (hfit (by omega)).2
    · cases k with
      | zero => exact lt_of_lt_of_le (lt_stored_cap _ b (by omega)) hcap
      | succ k =>
        have hk' := hwithin k (Nat.lt_of_succ_lt_succ hk)
        rwa [show i + (k + 1) = i + 1 + k by omega]

theorem fitLength_answer (n : Nat) (r : HostResult) (s : State) :
    fitLength n (answer r s) = ((fitLength n s).1, answer r (fitLength n s).2) := by
  unfold fitLength
  split <;> rfl

/-- A write does not see the result of an earlier operation. -/
theorem pktSetOp_answer (p : PacketId) (i : Nat) (v : Byte) (r : HostResult) (s : State) :
    pktSetOp p i v (answer r s) = answer r (pktSetOp p i v s) := by
  have hset (k : Packet) : (answer r s).setPkt p k = answer r (s.setPkt p k) := by cases p <;> rfl
  simp only [pktSetOp, bufSetOp, answer_maxLen, answer_pkt, hset]
  split_ifs
  · cases p <;> rfl
  · simp only [extendLength, answer_pkt, fitLength_answer]
    cases p <;> rfl

theorem pktSetEach_answer (p : PacketId) (bytes : List Byte) (i : Nat) (r : HostResult) (s : State) :
    pktSetEach p i bytes (answer r s) = answer r (pktSetEach p i bytes s) := by
  induction bytes generalizing i s with
  | nil => rfl
  | cons b rest ih => rw [pktSetEach, pktSetOp_answer, ih, pktSetEach]

theorem exec_pktSetn_past {p : PacketId} {first n : Nat} {s : State} (bytes : List Byte)
    (h : s.maxLen p < first + n) :
    exec (.pktSetn p first bytes n) s =
      .next (answer .none (record p .maxFrameLengthExceeded s)) := by
  show execPktSetn p first bytes n s = _
  rw [execPktSetn, if_pos (.inl h), pktSetnOp, if_pos h]

theorem exec_pktSetn_short {p : PacketId} {first n : Nat} {s : State} {bytes : List Byte}
    (h : first + n ≤ s.maxLen p) (hn : bytes.length < n) :
    exec (.pktSetn p first bytes n) s = .refused .byteListTooShort :=
  if_neg (by omega)

theorem exec_pktSetn_within {p : PacketId} {first n : Nat} {s : State} {bytes : List Byte}
    (h : first + n ≤ s.maxLen p) (hn : n ≤ bytes.length) :
    exec (.pktSetn p first bytes n) s =
      .next (answer .none (pktSetEach p first (bytes.take n) s)) := by
  show execPktSetn p first bytes n s = _
  rw [execPktSetn, if_pos (.inr hn), pktSetnOp, if_neg (by omega)]

/-- Settles O22: the range inside the ceiling by induction on its bytes, its first byte split off by the
recursion of the writes. -/
theorem pktSetnResult : Obligations.PktSetnResult := by
  intro s p first n bytes
  refine ⟨exec_pktSetn_past bytes, exec_pktSetn_short, fun h hn => ?_, fun b h hn => ?_⟩
  · refine ⟨_, exec_pktSetn_within h hn, ?_⟩
    have hlen : (bytes.take n).length = n := List.length_take_of_le hn
    obtain ⟨hwritten, hothers, hck, herr, hfl, hd, _, _⟩ :=
      pktSetEach_wroteBytes (p := p) (bytes.take n) (i := first) (s := s) (by omega)
    rw [hlen] at hwritten hothers hfl hd
    rw [answer_pkt, answer_draws]
    refine ⟨fun k hk => ?_, hothers, hck, herr, fun hlt => ⟨hfl hlt, hd hlt⟩,
      packetOnly_answer (pktSetEach_packetOnly ..) _⟩
    rw [hwritten k hk, List.getElem?_take_of_lt hk]
  · refine ⟨_, exec_pktSet p first b s, ?_⟩
    have hrest : first + 1 + n ≤ (answer .none (pktSetOp p first b s)).maxLen p := by
      rw [answer_maxLen, pktSetOp_maxLen]
      omega
    rw [exec_pktSetn_within (bytes := b :: bytes) h (Nat.succ_le_succ hn), exec_pktSetn_within hrest hn,
      pktSetEach_answer]
    rfl

/-! ### The frame that a packet holds -/

theorem mapM_eq_some_iff {α β : Type} (f : α → Option β) (l : List α) (r : List β) :
    l.mapM f = some r ↔ List.Forall₂ (fun a b => f a = some b) l r := by
  induction l generalizing r with
  | nil => cases r <;> simp
  | cons a l ih =>
    cases r with
    | nil => simp [List.mapM_cons, Option.bind_eq_some_iff]
    | cons b r => simp [List.mapM_cons, Option.bind_eq_some_iff, ih]

/-- The frame is as long as the length register says, and its bytes are the values of the cells. -/
theorem frame_eq_some_iff (k : Packet) (f : List Byte) :
    k.frame = some f ↔
      f.length = k.frameLength.toNat ∧ ∀ i (h : i < f.length), k.peek i = some f[i] := by
  rw [Packet.frame, mapM_eq_some_iff, List.forall₂_iff_get]
  simp only [List.length_range, List.get_eq_getElem, List.getElem_range]
  exact ⟨fun ⟨hlen, h⟩ => ⟨hlen.symm, fun i hi => h i (by omega) hi⟩,
    fun ⟨hlen, h⟩ => ⟨hlen.symm, fun i _ hi => h i hi⟩⟩

/-! ### `PKT.CALC_CHECKSUM` (R150) -/

theorem sumCells_of_peek {p : PacketId} {s : State} (f : List Byte) {i : Nat} (acc : Byte)
    (h : ∀ j (hj : j < f.length), (s.pkt p).peek (i + j) = some f[j]) :
    sumCells p i f.length acc s = (f.foldl (· + ·) acc, s) := by
  induction f generalizing i acc with
  | nil => rfl
  | cons b rest ih =>
    have hb : bufGetOp p i s = (b, s) := bufGetOp_peek (h 0 (Nat.zero_lt_succ _))
    have hrest (j : Nat) (hj : j < rest.length) : (s.pkt p).peek (i + 1 + j) = some rest[j] := by
      rw [show i + 1 + j = i + (j + 1) by omega]
      exact h (j + 1) (Nat.succ_lt_succ hj)
    simp only [List.length_cons, sumCells, hb, ih _ hrest, List.foldl_cons]

theorem calcChecksumOp_of_frame {p : PacketId} {s : State} {f : List Byte}
    (h : (s.pkt p).frame = some f) : calcChecksumOp p s = (0xFF - frameSum f, s) := by
  obtain ⟨hlen, hcells⟩ := (frame_eq_some_iff ..).mp h
  have hsum := sumCells_of_peek (i := 0) f 0 fun j hj => by rw [Nat.zero_add]; exact hcells j hj
  rw [hlen] at hsum
  simp only [calcChecksumOp, hsum]
  rfl

/-- Settles O25, by the sum over the cells of the frame. -/
theorem pktCalcChecksumResult : Obligations.PktCalcChecksumResult := by
  intro s p
  have hexec : exec (.pktCalcChecksum p) s =
      .next (answer (.byte (calcChecksumOp p s).1) (calcChecksumOp p s).2) := rfl
  rw [hexec]
  refine ⟨fun f hf => by rw [calcChecksumOp_of_frame hf]; rfl, ?_⟩
  obtain ⟨n, hn⟩ := calcChecksumOp_frame p s
  exact ⟨_, n, by rw [hn]; rfl⟩

end Sys2Proof.Machine

/-! O36, O37, O4, O29, O34, O35, O38, O39 and O40: the byte step of the decoder (R109, R170 to R188).

The loop body of R170 is cut where the escape remover hands a byte on: `afterEscapes` is its steps 3 and 4.
What a raw byte does is said once for each of the ways it can leave steps 1 and 2, both for R170 and for
the rows of R109; the two agree way by way. -/

namespace Sys2Proof.Machine

open Host (Outcome)
open Function (Semiconj)

/-! ### The loop body of R170, in two parts -/

/-- Step 3 of R170. -/
def addToSum (b : Byte) (s : State) : State :=
  if 3 ≤ s.dec.idx then { s with dec := { s.dec with csum := s.dec.csum + b } } else s

/-- Step 4 of R170. -/
def dispatchByte (b : Byte) (s : State) : State :=
  if s.dec.idx = 0 then
    if b = 0x7E then s.setIdx 1 else decoderError .packetIncomplete s
  else if s.dec.idx = 1 then (s.setInLength (withMsb b s.inp.frameLength)).setIdx 2
  else if s.dec.idx = 2 then (s.setInLength (withLsb b s.inp.frameLength)).setIdx 3
  else if s.cfg.mIn < s.dec.idx then decoderError .maxFrameLengthExceeded s
  else if s.dec.idx = s.inp.frameLength.toNat + 3 then
    if s.dec.csum = 0xFF then
      stopCall { s with
        dec := { s.dec with complete := true }
        inp := { s.inp with checksum := b, errorCode := .noError } }
    else decoderError .checksumFailure s
  else (pktSetOp .incoming (s.dec.idx - 3) b s).setIdx (s.dec.idx + 1)

/-- Steps 3 and 4 of R170, on a byte that leaves steps 1 and 2. -/
def afterEscapes (b : Byte) (s : State) : State := dispatchByte b (addToSum b s)

theorem referenceByte_eq (b : Byte) (s : State) :
    referenceByte b s =
      if s.cfg.escapedMode then
        if s.dec.escaping then
          afterEscapes (escapeXor b) { s with dec := { s.dec with escaping := false } }
        else if b = escapeByte ∧ 0 < s.dec.idx then
          match s.rxq with
          | [] => stopCall { s with dec := { s.dec with escaping := true } }
          | x :: q => afterEscapes (escapeXor x) { s with rxq := q }
        else if b = startByte ∧ 0 < s.dec.idx then decoderError .unexpectedPacketStart s
        else afterEscapes b s
      else afterEscapes b s := rfl

section
variable {s : State} {f : Flight} {b x : Byte} {q : List Byte} {n : Nat}

/-! ### The ways of a raw byte through steps 1 and 2 -/

/-- The raw byte `b` passes steps 1 and 2 as it is. -/
def State.passesRaw (s : State) (b : Byte) : Prop :=
  s.cfg.escapedMode = true →
    s.dec.escaping = false ∧ (0 < s.dec.idx → b ≠ escapeByte ∧ b ≠ startByte)

/-- A byte passes raw, completes a pending escape, begins an escape, or is an out-of-place START. -/
theorem passesRaw_or (b : Byte) (s : State) :
    s.passesRaw b ∨ (s.cfg.escapedMode = true ∧ s.dec.escaping = true) ∨
      (s.escapesHere = true ∧ b = escapeByte) ∨ (s.escapesHere = true ∧ b = startByte) := by
  simp only [State.passesRaw, escapesHere_iff]
  cases s.cfg.escapedMode <;> cases s.dec.escaping <;> simp
  by_cases hidx : 0 < s.dec.idx <;> by_cases he : b = escapeByte <;>
    by_cases hs : b = startByte <;> simp [hidx, he, hs]

theorem referenceByte_raw (h : s.passesRaw b) : referenceByte b s = afterEscapes b s := by
  rw [referenceByte_eq]
  split
  · next hmode =>
    obtain ⟨hesc, hb⟩ := h hmode
    rw [if_neg (by simp [hesc]), if_neg fun hc => (hb hc.2).1 hc.1,
      if_neg fun hc => (hb hc.2).2 hc.1]
  · rfl

theorem referenceByte_pending (hmode : s.cfg.escapedMode = true) (hesc : s.dec.escaping = true) :
    referenceByte b s =
      afterEscapes (escapeXor b) { s with dec := { s.dec with escaping := false } } := by
  rw [referenceByte_eq, if_pos hmode, if_pos hesc]

theorem referenceByte_pair (hhere : s.escapesHere = true) (hq : s.rxq = x :: q) :
    referenceByte escapeByte s = afterEscapes (escapeXor x) { s with rxq := q } := by
  obtain ⟨hmode, hesc, hidx⟩ := escapesHere_iff.mp hhere
  rw [referenceByte_eq, if_pos hmode, if_neg (by simp [hesc]), if_pos ⟨rfl, hidx⟩, hq]

theorem referenceByte_suspend (hhere : s.escapesHere = true) (hq : s.rxq = []) :
    referenceByte escapeByte s = stopCall { s with dec := { s.dec with escaping := true } } := by
  obtain ⟨hmode, hesc, hidx⟩ := escapesHere_iff.mp hhere
  rw [referenceByte_eq, if_pos hmode, if_neg (by simp [hesc]), if_pos ⟨rfl, hidx⟩, hq]

theorem referenceByte_start (hhere : s.escapesHere = true) :
    referenceByte startByte s = decoderError .unexpectedPacketStart s := by
  obtain ⟨hmode, hesc, hidx⟩ := escapesHere_iff.mp hhere
  rw [referenceByte_eq, if_pos hmode, if_neg (by simp [hesc]),
    if_neg fun h => startByte_ne_escapeByte h.1, if_pos ⟨rfl, hidx⟩]

/-! ### Step 4, position by position -/

/-- Where the cursor stands, and what step 4 compares there. -/
theorem dispatch_cases (b : Byte) (s : State) :
    (s.dec.idx = 0 ∧ b = startByte) ∨ (s.dec.idx = 0 ∧ b ≠ startByte) ∨ s.dec.idx = 1 ∨
      s.dec.idx = 2 ∨ (3 ≤ s.dec.idx ∧ s.cfg.mIn < s.dec.idx) ∨
      (3 ≤ s.dec.idx ∧ s.dec.idx ≤ s.cfg.mIn ∧
        s.dec.idx = checksumOffset s.inp.frameLength ∧ s.dec.csum = 0xFF) ∨
      (3 ≤ s.dec.idx ∧ s.dec.idx ≤ s.cfg.mIn ∧
        s.dec.idx = checksumOffset s.inp.frameLength ∧ s.dec.csum ≠ 0xFF) ∨
      (3 ≤ s.dec.idx ∧ s.dec.idx ≤ s.cfg.mIn ∧
        s.dec.idx ≠ checksumOffset s.inp.frameLength) := by
  by_cases hb : b = startByte <;> by_cases hsum : s.dec.csum = 0xFF <;>
    simp only [hb, hsum, ne_eq, not_true, not_false_iff, and_true, and_false, false_or] <;>
    omega

theorem dispatchByte_start (h : s.dec.idx = 0) : dispatchByte startByte s = s.setIdx 1 := by
  rw [dispatchByte, if_pos h]
  rfl

theorem dispatchByte_nostart (h : s.dec.idx = 0) (hb : b ≠ startByte) :
    dispatchByte b s = decoderError .packetIncomplete s := by
  rw [dispatchByte, if_pos h]
  exact if_neg hb

theorem dispatchByte_lenMsb (h : s.dec.idx = 1) :
    dispatchByte b s = (s.setInLength (withMsb b s.inp.frameLength)).setIdx 2 := by
  rw [dispatchByte, if_neg (by omega), if_pos h]

theorem dispatchByte_lenLsb (h : s.dec.idx = 2) :
    dispatchByte b s = (s.setInLength (withLsb b s.inp.frameLength)).setIdx 3 := by
  rw [dispatchByte, if_neg (by omega), if_neg (by omega), if_pos h]

theorem dispatchByte_overlen (hidx : 3 ≤ s.dec.idx) (hover : s.cfg.mIn < s.dec.idx) :
    dispatchByte b s = decoderError .maxFrameLengthExceeded s := by
  rw [dispatchByte, if_neg (by omega), if_neg (by omega), if_neg (by omega), if_pos hover]

theorem dispatchByte_ckOk (hidx : 3 ≤ s.dec.idx) (hmax : s.dec.idx ≤ s.cfg.mIn)
    (hck : s.dec.idx = checksumOffset s.inp.frameLength) (hsum : s.dec.csum = 0xFF) :
    dispatchByte b s = stopCall { s with
      dec := { s.dec with complete := true }
      inp := { s.inp with checksum := b, errorCode := .noError } } := by
  rw [dispatchByte, if_neg (by omega), if_neg (by omega), if_neg (by omega), if_neg (by omega)]
  exact (if_pos hck).trans (if_pos hsum)

theorem dispatchByte_ckFail (hidx : 3 ≤ s.dec.idx) (hmax : s.dec.idx ≤ s.cfg.mIn)
    (hck : s.dec.idx = checksumOffset s.inp.frameLength) (hsum : s.dec.csum ≠ 0xFF) :
    dispatchByte b s = decoderError .checksumFailure s := by
  rw [dispatchByte, if_neg (by omega), if_neg (by omega), if_neg (by omega), if_neg (by omega)]
  exact (if_pos hck).trans (if_neg hsum)

theorem dispatchByte_store (hidx : 3 ≤ s.dec.idx) (hmax : s.dec.idx ≤ s.cfg.mIn)
    (hck : s.dec.idx ≠ checksumOffset s.inp.frameLength) :
    dispatchByte b s = (pktSetOp .incoming (s.dec.idx - 3) b s).setIdx (s.dec.idx + 1) := by
  rw [dispatchByte, if_neg (by omega), if_neg (by omega), if_neg (by omega), if_neg (by omega)]
  exact if_neg hck

/-! ### The rows of R109 make the same steps -/

theorem landed_of_flight_none (h : s.flight = none) : landed s = s := by
  cases s
  cases h
  rfl

theorem landed_sparesPacket : SparesPacket .incoming landed where
  pkt _ := rfl
  cfg _ := rfl
  setPkt _ _ := rfl
  drawByte _ := rfl
  fitLength _ := semiconj_ite (fun _ => Iff.rfl) (fun _ => rfl) (fun _ => rfl)
  answer _ _ := rfl

theorem dispatchRow_ckOk (hidx : 3 ≤ s.dec.idx) (hmax : s.dec.idx ≤ s.cfg.mIn)
    (hck : s.dec.idx = checksumOffset s.inp.frameLength) (hsum : s.dec.csum = 0xFF) :
    dispatchRow b s = .decCkOk b := by
  rw [dispatchRow_of_three_le hidx, if_neg (by omega), if_pos hck, if_pos hsum]

theorem dispatchRow_ckFail (hidx : 3 ≤ s.dec.idx) (hmax : s.dec.idx ≤ s.cfg.mIn)
    (hck : s.dec.idx = checksumOffset s.inp.frameLength) (hsum : s.dec.csum ≠ 0xFF) :
    dispatchRow b s = .decCkFail b := by
  rw [dispatchRow_of_three_le hidx, if_neg (by omega), if_pos hck, if_neg hsum]

theorem dispatchRow_store (hidx : 3 ≤ s.dec.idx) (hmax : s.dec.idx ≤ s.cfg.mIn)
    (hck : s.dec.idx ≠ checksumOffset s.inp.frameLength) : dispatchRow b s = .decStore b := by
  rw [dispatchRow_of_three_le hidx, if_neg (by omega), if_neg hck]

theorem atChecksum_iff :
    s.atChecksum = true ↔
      3 ≤ s.dec.idx ∧ s.dec.idx ≤ s.cfg.mIn ∧ s.dec.idx = checksumOffset s.inp.frameLength := by
  simp [State.atChecksum, and_assoc]

theorem decCkOk_of_atChecksum (h : s.atChecksum = true) (hsum : s.dec.csum = 0xFF) :
    decCkOk b s = stopCall { s with
      dec := { s.dec with complete := true }
      inp := { s.inp with checksum := b, errorCode := .noError } } :=
  if_pos ⟨h, hsum⟩

theorem decCkFail_of_atChecksum (h : s.atChecksum = true) (hsum : s.dec.csum ≠ 0xFF) :
    decCkFail b s = decoderError .checksumFailure s :=
  if_pos ⟨h, hsum⟩

theorem decStore_of_ne (hidx : 3 ≤ s.dec.idx) (hmax : s.dec.idx ≤ s.cfg.mIn)
    (hck : s.dec.idx ≠ checksumOffset s.inp.frameLength) :
    decStore b s = landed ((pktSetOp .incoming (s.dec.idx - 3) b s).setIdx (s.dec.idx + 1)) :=
  if_pos ⟨hidx, hmax, hck⟩

/-- The row of order 4 makes step 4 of R170. -/
theorem applyRow_dispatchRow (b : Byte) (s : State) :
    applyRow (dispatchRow b s) s = dispatchByte b (landed s) := by
  obtain ⟨h0, rfl⟩ | ⟨h0, hb⟩ | h1 | h2 | ⟨h3, hover⟩ | ⟨h3, hmax, hck, hsum⟩ |
    ⟨h3, hmax, hck, hsum⟩ | ⟨h3, hmax, hck⟩ := dispatch_cases b s
  · rw [dispatchRow_startByte h0, dispatchByte_start (s := landed s) h0]
    exact if_pos h0
  · rw [dispatchRow_ne_startByte h0 hb, dispatchByte_nostart (s := landed s) h0 hb]
    exact if_pos ⟨h0, hb⟩
  · rw [dispatchRow_idx_one h1, dispatchByte_lenMsb (s := landed s) h1]
    exact if_pos h1
  · rw [dispatchRow_idx_two h2, dispatchByte_lenLsb (s := landed s) h2]
    exact if_pos h2
  · rw [dispatchRow_overlen h3 hover, dispatchByte_overlen (s := landed s) h3 hover]
    exact if_pos ⟨h3, hover⟩
  · rw [dispatchRow_ckOk h3 hmax hck hsum, dispatchByte_ckOk (s := landed s) h3 hmax hck hsum]
    exact decCkOk_of_atChecksum (atChecksum_iff.mpr ⟨h3, hmax, hck⟩) hsum
  · rw [dispatchRow_ckFail h3 hmax hck hsum, dispatchByte_ckFail (s := landed s) h3 hmax hck hsum]
    exact decCkFail_of_atChecksum (b := b) (atChecksum_iff.mpr ⟨h3, hmax, hck⟩) hsum
  · rw [dispatchRow_store h3 hmax hck, dispatchByte_store (s := landed s) h3 hmax hck,
      landed_sparesPacket.pktSetOp]
    exact decStore_of_ne h3 hmax hck

theorem runRows_of_flight_none (h : s.flight = none) : runRows n s = s := by
  cases n with
  | zero => rfl
  | succ n => simp only [runRows, h]

theorem runRows_succ (h : s.flight = some f) :
    runRows (n + 1) s = runRows n (applyRow (selectRow f s) s) := by
  simp only [runRows, h]

theorem dispatchByte_flight (h : s.flight = none) : (dispatchByte b s).flight = none := by
  obtain ⟨h0, rfl⟩ | ⟨h0, hb⟩ | h1 | h2 | ⟨h3, hover⟩ | ⟨h3, hmax, hck, hsum⟩ |
    ⟨h3, hmax, hck, hsum⟩ | ⟨h3, hmax, hck⟩ := dispatch_cases b s
  · rwa [dispatchByte_start h0]
  · rw [dispatchByte_nostart h0 hb]; rfl
  · rwa [dispatchByte_lenMsb h1]
  · rwa [dispatchByte_lenLsb h2]
  · rw [dispatchByte_overlen h3 hover]; rfl
  · rw [dispatchByte_ckOk h3 hmax hck hsum]; rfl
  · rw [dispatchByte_ckFail h3 hmax hck hsum]; rfl
  · rw [dispatchByte_store h3 hmax hck, setIdx_flight, pktSetOp_packetOnly .incoming _ b s]
    exact h

theorem addToSum_landed (b : Byte) (s : State) : addToSum b (landed s) = landed (addToSum b s) := by
  unfold addToSum
  split_ifs <;> first | rfl | contradiction

/-- The rows of orders 3 and 4 make steps 3 and 4 of R170. -/
theorem runRows_of_sumRow (hf : s.flight = some f) (hrow : selectRow f s = sumRow f.byte s) :
    runRows (n + 2) s = afterEscapes f.byte (landed s) := by
  rw [runRows_succ hf, hrow, afterEscapes, addToSum_landed]
  by_cases hidx : 3 ≤ s.dec.idx
  · have hsum : applyRow (sumRow f.byte s) s =
        flyTo f.byte s.fromEscape .dispatch (addToSum f.byte s) := by
      rw [sumRow_of_three_le hidx, addToSum, if_pos hidx]
      exact if_pos hidx
    rw [hsum, runRows_succ rfl]
    exact (congrArg (runRows n) (applyRow_dispatchRow ..)).trans
      (runRows_of_flight_none (dispatchByte_flight rfl))
  · have hadd : addToSum f.byte s = s := if_neg hidx
    rw [sumRow, if_neg hidx, applyRow_dispatchRow, hadd]
    exact runRows_of_flight_none (dispatchByte_flight rfl)

theorem runRows_flyTo_sum (n : Nat) (b : Byte) (e : Bool) (s : State) :
    runRows (n + 2) (flyTo b e .sum s) = afterEscapes b (landed s) :=
  runRows_of_sumRow (f := { byte := b, fromEscape := e, order := .sum }) rfl rfl

theorem selectRow_of_passesRaw (ho : f.order = .escape) (h : s.passesRaw f.byte) :
    selectRow f s = sumRow f.byte s := by
  simp only [selectRow, ho]
  split
  · next hmode =>
    obtain ⟨hesc, hb⟩ := h hmode
    rw [if_neg (by simp [hesc]), if_neg fun hc => (hb hc.2).1 hc.1,
      if_neg fun hc => (hb hc.2.1).2 hc.1]
  · rfl

theorem decUnesc_of_escaping (hmode : s.cfg.escapedMode = true) (hesc : s.dec.escaping = true) :
    decUnesc b s =
      flyTo (escapeXor b) true .sum { s with dec := { s.dec with escaping := false } } :=
  if_pos ⟨hmode, hesc⟩

theorem decEscInline_of_cons (hhere : s.escapesHere = true) (hq : s.rxq = x :: q) :
    decEscInline s = flyTo (escapeXor x) true .sum { s with rxq := q } := by
  simp only [decEscInline, hhere, hq]

theorem decEscSuspend_of_nil (hhere : s.escapesHere = true) (hq : s.rxq = []) :
    decEscSuspend s = stopCall { s with dec := { s.dec with escaping := true } } :=
  if_pos ⟨hhere, available_eq_zero_iff.mpr hq⟩

theorem decErrStart_of_raw (hmode : s.cfg.escapedMode = true) (hraw : s.fromEscape = false)
    (hidx : 0 < s.dec.idx) : decErrStart s = decoderError .unexpectedPacketStart s :=
  if_pos ⟨hmode, Bool.eq_false_iff.mp hraw, hidx⟩

/-- The rows that a raw byte meets make one pass of the loop body of R170. -/
theorem runRows_eq_referenceByte (hf : s.flight = some f) (ho : f.order = .escape)
    (hr : f.fromEscape = false) : runRows 3 s = referenceByte f.byte (landed s) := by
  obtain hraw | ⟨hmode, hesc⟩ | ⟨hhere, hb⟩ | ⟨hhere, hb⟩ := passesRaw_or f.byte s
  · rw [referenceByte_raw (s := landed s) hraw]
    exact runRows_of_sumRow hf (selectRow_of_passesRaw ho hraw)
  · rw [referenceByte_pending (s := landed s) hmode hesc, runRows_succ hf,
      selectRow_of_escaping ho hmode hesc]
    exact (congrArg (runRows 2) (decUnesc_of_escaping hmode hesc)).trans (runRows_flyTo_sum ..)
  · rw [runRows_succ hf, selectRow_escapeByte ho hhere hb, hb]
    cases hq : s.rxq with
    | nil =>
      rw [referenceByte_suspend (s := landed s) hhere hq, if_pos (available_eq_zero_iff.mpr hq)]
      exact (congrArg (runRows 2) (decEscSuspend_of_nil hhere hq)).trans (runRows_of_flight_none rfl)
    | cons x q =>
      rw [referenceByte_pair (s := landed s) hhere hq,
        if_neg (by rw [available_eq_zero_iff, hq]; exact List.cons_ne_nil x q)]
      exact (congrArg (runRows 2) (decEscInline_of_cons hhere hq)).trans (runRows_flyTo_sum ..)
  · obtain ⟨hmode, _, hidx⟩ := escapesHere_iff.mp hhere
    have hfe : s.fromEscape = false := by simp [State.fromEscape, hf, hr]
    rw [hb, referenceByte_start (s := landed s) hhere, runRows_succ hf,
      selectRow_startByte ho hhere hb hr]
    exact (congrArg (runRows 2) (decErrStart_of_raw hmode hfe hidx)).trans
      (runRows_of_flight_none rfl)

end

/-- A byte step makes one pass of the loop body of R170. -/
theorem byteStep_eq_referenceByte (b : Byte) (s : State) :
    byteStep b s = referenceByte b (landed s) :=
  runRows_eq_referenceByte (s := flyTo b false .escape s)
    (f := { byte := b, fromEscape := false, order := .escape }) rfl rfl rfl

theorem byteStep_of_flight_none {s : State} (b : Byte) (h : s.flight = none) :
    byteStep b s = referenceByte b s := by
  rw [byteStep_eq_referenceByte, landed_of_flight_none h]

/-! ### The units of the wire stream -/

theorem exec_of_encode_one {i : Instr} {b : Byte} (s : State) (hi : i.isWireUnit = true)
    (he : encode i = some [b]) : exec i s = .next (byteStep b s) := by
  cases i with
  | ftAtCommand f | ftTransmitRequest f | ftRemoteAtCommand f | ftAtCommandResponse f
  | ftModemStatus f | ftTxStatus f | ftRxReceived f | ftRemoteAtCommandResponse f =>
    cases f with
    | wire => cases he; rfl
    | _ => cases hi
  | start | escape | xon | xoff | data | ftAtCommandQueued | ftExplicitAddressing | ftExplicitRx
  | ftIoRx | ftNodeId => cases he; rfl
  | escStart | escEscape | escXon | escXoff | escGeneric => cases he
  | _ => cases hi

theorem exec_of_encode_two {i : Instr} {b x : Byte} (s : State) (hi : i.isWireUnit = true)
    (he : encode i = some [b, x]) : exec i s = .next (escapePair x s) := by
  cases i with
  | ftAtCommand f | ftTransmitRequest f | ftRemoteAtCommand f | ftAtCommandResponse f
  | ftModemStatus f | ftTxStatus f | ftRxReceived f | ftRemoteAtCommandResponse f =>
    cases f <;> cases he
  | start | escape | xon | xoff | data | ftAtCommandQueued | ftExplicitAddressing | ftExplicitRx
  | ftIoRx | ftNodeId => cases he
  | escStart | escEscape | escXon | escXoff | escGeneric => cases he; rfl
  | _ => cases hi

/-- Settles O36: a unit runs the byte step of its first byte, which is a pass of the loop body. -/
theorem wireUnitsRunTheAlgorithm : Obligations.WireUnitsRunTheAlgorithm := by
  intro i b x s hi hflight
  refine ⟨fun he => ?_, fun he => ?_⟩
  · rw [exec_of_encode_one s hi he, byteStep_of_flight_none b hflight]
  · rw [exec_of_encode_two s hi he, escapePair,
      byteStep_of_flight_none (s := { s with rxq := x :: s.rxq }) _ hflight]
    rfl

end Sys2Proof.Machine

/-! O4, O29, O34, O35, O37, O38, O39 and O40: the rows and the units of the decoder, from the byte step (R109,
R171, R172, R174 to R187). -/

namespace Sys2Proof.Machine

open Host (Outcome)
open Function (Semiconj)

/-! ### O4: every byte meets a row -/

/-- `i` is a well-formed row whose table encoding is the one byte `b`. -/
def Instr.isRowOn (i : Instr) (b : Byte) : Prop := i.wellFormed = true ∧ encode i = some [b]

theorem dispatchRow_isRowOn (b : Byte) (s : State) : Instr.isRowOn (dispatchRow b s) b := by
  unfold dispatchRow
  split
  · split
    · next hb => exact ⟨rfl, by rw [hb]; rfl⟩
    · next hb => exact ⟨by simpa [Instr.wellFormed] using hb, rfl⟩
  · split_ifs <;> exact ⟨rfl, rfl⟩

theorem sumRow_isRowOn (b : Byte) (s : State) : Instr.isRowOn (sumRow b s) b := by
  unfold sumRow
  split
  · exact ⟨rfl, rfl⟩
  · exact dispatchRow_isRowOn b s

section
variable {s : State} {f : Flight}

/-- The byte moves to a later order, or its step ends. -/
def State.movesOn (o : ByteOrder) (t : State) : Prop :=
  t.flight = none ∨ ∃ g, t.flight = some g ∧
    (o = .escape ∧ g.order ≠ .escape ∨ o = .sum ∧ g.order = .dispatch)

theorem movesOn_of_order_sum {t : State} {g : Flight} (h : t.flight = some g)
    (hg : g.order = .sum) : State.movesOn .escape t :=
  .inr ⟨g, h, .inl ⟨rfl, by rw [hg]; nofun⟩⟩

theorem applyRow_dispatchRow_movesOn (b : Byte) (o : ByteOrder) (s : State) :
    State.movesOn o (applyRow (dispatchRow b s) s) := by
  rw [applyRow_dispatchRow]
  exact .inl (dispatchByte_flight rfl)

theorem applyRow_sumRow_movesOn (b : Byte) (o : ByteOrder) (ho : o ≠ .dispatch) (s : State) :
    State.movesOn o (applyRow (sumRow b s) s) := by
  by_cases hidx : 3 ≤ s.dec.idx
  · have hsum : applyRow (sumRow b s) s =
        flyTo b s.fromEscape .dispatch { s with dec := { s.dec with csum := s.dec.csum + b } } := by
      rw [sumRow_of_three_le hidx]
      exact if_pos hidx
    rw [hsum]
    refine .inr ⟨_, rfl, ?_⟩
    cases o with
    | escape => exact .inl ⟨rfl, nofun⟩
    | sum => exact .inr ⟨rfl, rfl⟩
    | dispatch => exact absurd rfl ho
  · rw [sumRow, if_neg hidx]
    exact applyRow_dispatchRow_movesOn b o s

/-- The row of orders 1 and 2 is on the byte, and after it the byte is past them. -/
theorem selectRow_escape_spec (hf : s.flight = some f) (ho : f.order = .escape) :
    Instr.isRowOn (selectRow f s) f.byte ∧ State.movesOn .escape (applyRow (selectRow f s) s) := by
  by_cases hpass : selectRow f s = sumRow f.byte s
  · rw [hpass]
    exact ⟨sumRow_isRowOn .., applyRow_sumRow_movesOn _ .escape nofun s⟩
  obtain hraw | ⟨hmode, hesc⟩ | ⟨hhere, hb⟩ | ⟨hhere, hb⟩ := passesRaw_or f.byte s
  · exact absurd (selectRow_of_passesRaw ho hraw) hpass
  · rw [selectRow_of_escaping ho hmode hesc]
    exact ⟨⟨rfl, rfl⟩,
      movesOn_of_order_sum (congrArg State.flight (decUnesc_of_escaping hmode hesc)) rfl⟩
  · rw [selectRow_escapeByte ho hhere hb, hb]
    cases hq : s.rxq with
    | nil =>
      rw [if_pos (available_eq_zero_iff.mpr hq)]
      exact ⟨⟨rfl, rfl⟩, .inl (congrArg State.flight (decEscSuspend_of_nil hhere hq))⟩
    | cons x q =>
      rw [if_neg (by rw [available_eq_zero_iff, hq]; exact List.cons_ne_nil x q)]
      exact ⟨⟨rfl, rfl⟩,
        movesOn_of_order_sum (congrArg State.flight (decEscInline_of_cons hhere hq)) rfl⟩
  · obtain ⟨hmode, hesc, hidx⟩ := escapesHere_iff.mp hhere
    cases hr : f.fromEscape with
    | false =>
      have hfe : s.fromEscape = false := by simp [State.fromEscape, hf, hr]
      rw [selectRow_startByte ho hhere hb hr, hb]
      exact ⟨⟨rfl, rfl⟩, .inl (congrArg State.flight (decErrStart_of_raw hmode hfe hidx))⟩
    | true =>
      exact absurd (by simp [selectRow, ho, hmode, hesc, hb, hr, startByte_ne_escapeByte]) hpass

end

/-- Settles O4, order by order. -/
theorem everyByteMeetsItsRow : Obligations.EveryByteMeetsItsRow := by
  intro s f hf
  suffices h : Instr.isRowOn (selectRow f s) f.byte ∧
      State.movesOn f.order (applyRow (selectRow f s) s) from
    ⟨h.1.1, h.1.2, _, exec_byteRow _ s (selectRow_isByteRow f s), h.2⟩
  cases ho : f.order with
  | escape => exact selectRow_escape_spec hf ho
  | sum =>
    rw [show selectRow f s = sumRow f.byte s by simp only [selectRow, ho]]
    exact ⟨sumRow_isRowOn .., applyRow_sumRow_movesOn _ .sum nofun s⟩
  | dispatch =>
    rw [show selectRow f s = dispatchRow f.byte s by simp only [selectRow, ho]]
    exact ⟨dispatchRow_isRowOn .., applyRow_dispatchRow_movesOn ..⟩

/-! ### O29: the entry of a call, and its fetches -/

theorem terminal_iff {s : State} :
    s.terminal = true ↔ s.dec.complete = true ∨ s.inp.errorCode ≠ .noError := by
  simp [State.terminal, isError_eq_decide]

theorem terminal_eq_false_iff {s : State} :
    s.terminal = false ↔ s.dec.complete = false ∧ s.inp.errorCode = .noError := by
  simp [State.terminal, isError_eq_decide]

/-- Settles O29, by the terminal states and the code 2 in them. -/
theorem entryAndFetchRows : Obligations.EntryAndFetchRows := by
  intro s b q
  refine ⟨fun hterm hcode => ?_, fun hcode => ?_, fun hc he => ?_, fun hq => ?_, fun hq => ?_⟩
  · have h : s.terminal = true := terminal_iff.mpr hterm
    exact ⟨by rw [entryRow, if_pos h, if_neg hcode],
      congrArg Outcome.next (if_pos ⟨h, hcode⟩)⟩
  · have h : s.terminal = true := terminal_iff.mpr (.inr (by rw [hcode]; nofun))
    exact ⟨by rw [entryRow, if_pos h, if_pos hcode], congrArg Outcome.next (if_pos hcode)⟩
  · have h : ¬ s.terminal = true := by rw [terminal_eq_false_iff.mpr ⟨hc, he⟩]; nofun
    exact ⟨by rw [entryRow, if_neg h], congrArg Outcome.next (if_neg h)⟩
  · show execDecFetch s = _
    simp only [execDecFetch, decFetch, hq]
    rfl
  · show execDecFetch s = _
    simp only [execDecFetch, decFetch, hq, stopCall]

/-! ### O34 and O35: the checksum rows and the store -/

/-- Settles O34, by the two sides of the comparison with `0xFF`. -/
theorem checksumRows : Obligations.ChecksumRows := by
  intro s b hidx hmax hck
  have hat : s.atChecksum = true := atChecksum_iff.mpr ⟨hidx, hmax, hck⟩
  exact ⟨fun hsum => ⟨dispatchRow_ckOk hidx hmax hck hsum,
      congrArg Outcome.next (decCkOk_of_atChecksum hat hsum)⟩,
    fun hsum => ⟨dispatchRow_ckFail hidx hmax hck hsum,
      congrArg Outcome.next (decCkFail_of_atChecksum hat hsum)⟩⟩

/-- Settles O35, by what `PKT.SET` leaves below the ceiling. -/
theorem storeRow : Obligations.StoreRow := by
  intro s b hidx hmax hck
  refine ⟨dispatchRow_store hidx hmax hck, _,
    congrArg Outcome.next (decStore_of_ne hidx hmax hck), ?_⟩
  obtain ⟨len, hpkt, hfit⟩ := pktSetOp_of_lt (p := .incoming) (i := s.dec.idx - 3) (s := s) b
    (show s.dec.idx - 3 < s.cfg.mIn by omega)
  have hframe := pktSetOp_packetOnly .incoming (s.dec.idx - 3) b s
  have hinp : (landed ((pktSetOp .incoming (s.dec.idx - 3) b s).setIdx (s.dec.idx + 1))).inp =
      (s.inp.stored s.cfg.mIn (s.dec.idx - 3) b).withLength len := hpkt
  have hlen := s.inp.frameLength.isLt
  rw [hinp]
  refine ⟨stored_read_same _ s.cfg.mIn .., fun j hj => stored_read_ne _ s.cfg.mIn _ _ hj,
    stored_cap_eq _ _ _ b, rfl, rfl, fun hlt => ?_, fun hgt hbig => ?_, ?_⟩
  · obtain ⟨hl, hd⟩ := hfit (by omega)
    refine ⟨BitVec.eq_of_toNat_eq ?_, hd⟩
    rw [withLength_frameLength, hl, pkt_incoming]
    omega
  · obtain ⟨hl, hd⟩ := hfit (by omega)
    refine ⟨?_, hd⟩
    rw [withLength_frameLength, hl, pkt_incoming]
    omega
  · rw [← hinp]
    exact congrArg (fun t => landed (t.setIdx (s.dec.idx + 1))) hframe

/-! ### O37: row by row -/

/-- The state with the schedule replaced. -/
def State.withTurns (ts : List Turn) (s : State) : State := { s with turns := ts }

@[simp] theorem withTurns_rxq (ts : List Turn) (s : State) : (s.withTurns ts).rxq = s.rxq := rfl
@[simp] theorem withTurns_escapesHere (ts : List Turn) (s : State) :
    (s.withTurns ts).escapesHere = s.escapesHere := rfl

section
variable (ts : List Turn)

theorem withTurns_sparesPacket (p : PacketId) : SparesPacket p (State.withTurns ts) where
  pkt _ := by cases p <;> rfl
  cfg _ := rfl
  setPkt _ _ := by cases p <;> rfl
  drawByte _ := rfl
  fitLength _ := semiconj_ite (fun _ => Iff.rfl) (fun _ => rfl) (fun _ => rfl)
  answer _ _ := rfl

theorem applyRow_withTurns (i : Instr) :
    Semiconj (applyRow i) (State.withTurns ts) (State.withTurns ts) := by
  cases i with
  | decEscInline =>
    intro s
    show decEscInline _ = State.withTurns ts (decEscInline s)
    unfold decEscInline
    rw [withTurns_escapesHere, withTurns_rxq]
    split <;> rfl
  | decStore b =>
    exact semiconj_guarded (fun _ => Iff.rfl) fun s =>
      congrArg (fun t => landed (t.setIdx (s.dec.idx + 1)))
        ((withTurns_sparesPacket ts .incoming).pktSetOp (frameIndex s.dec.idx) b s)
  | decUnesc | decEscSuspend | decErrStart | decCsum | decSof | decErrNostart | decLenMsb
  | decLenLsb | decErrOverlen | decCkOk | decCkFail =>
    exact semiconj_guarded (fun _ => Iff.rfl) fun _ => rfl
  | _ => exact fun _ => rfl

end

/-- The form of the rows of a byte step: what they do keeps the call or ends the flight. -/
theorem guarded_call {s t : State} {P : Prop} [Decidable P] (h : t.call = s.call ∨ t.flight = none) :
    (if P then t else s).call = s.call ∨ (if P then t else s).flight = none := by
  split
  · exact h
  · exact .inl rfl

/-- A row keeps the call, or ends the flight. -/
theorem applyRow_call (i : Instr) (s : State) :
    (applyRow i s).call = s.call ∨ (applyRow i s).flight = none := by
  cases i with
  | decEscInline =>
    show (decEscInline s).call = s.call ∨ _
    unfold decEscInline
    split <;> exact .inl rfl
  | decUnesc | decCsum => exact guarded_call (.inl rfl)
  | decEscSuspend | decErrStart | decErrNostart | decErrOverlen | decCkOk | decCkFail | decSof
  | decLenMsb | decLenLsb | decStore => exact guarded_call (.inr rfl)
  | _ => exact .inl rfl

theorem step_row_flight {s : State} {f : Flight} {ts : List Turn} (hcall : s.call = .drain)
    (hf : s.flight = some f) :
    step (s.withTurns (.row :: ts)) = .next ((applyRow (selectRow f s) s).withTurns ts) := by
  have hblock : blockStep true (s.withTurns ts) = exec (selectRow f s) (s.withTurns ts) :=
    blockStep_flight hcall hf
  have hstep : step (s.withTurns (.row :: ts)) = blockStep true (s.withTurns ts) :=
    step_row_turn rfl
  rw [hstep, hblock, exec_byteRow _ _ (selectRow_isByteRow f s), applyRow_withTurns]

/-- Row turns run the rows of the byte step in flight until it ends. -/
theorem runsTo_runRows (n : Nat) {s : State} {f : Flight} (hcall : s.call = .drain)
    (hf : s.flight = some f) (hend : (runRows n s).flight = none) :
    ∃ k, 1 ≤ k ∧ k ≤ n ∧
      runsTo k (s.withTurns (List.replicate k .row)) ((runRows n s).withTurns []) := by
  induction n generalizing s f with
  | zero => rw [runRows, hf] at hend; cases hend
  | succ n ih =>
    rw [runRows_succ hf] at hend ⊢
    cases hg : (applyRow (selectRow f s) s).flight with
    | none =>
      rw [runRows_of_flight_none hg]
      exact ⟨1, le_rfl, Nat.succ_le_succ (Nat.zero_le n), _, step_row_flight hcall hf, rfl⟩
    | some g =>
      have hcall' : (applyRow (selectRow f s) s).call = .drain := by
        obtain h | h := applyRow_call (selectRow f s) s
        · rw [h, hcall]
        · rw [h] at hg; cases hg
      obtain ⟨k, hk, hkn, hrun⟩ := ih hcall' hg hend
      exact ⟨k + 1, Nat.le_add_left 1 k, Nat.succ_le_succ hkn, _, step_row_flight hcall hf, hrun⟩

theorem afterEscapes_flight {b : Byte} {s : State} (h : s.flight = none) :
    (afterEscapes b s).flight = none := by
  refine dispatchByte_flight ?_
  unfold addToSum
  split <;> exact h

theorem referenceByte_flight {b : Byte} {s : State} (h : s.flight = none) :
    (referenceByte b s).flight = none := by
  obtain hraw | ⟨hmode, hesc⟩ | ⟨hhere, rfl⟩ | ⟨hhere, rfl⟩ := passesRaw_or b s
  · rw [referenceByte_raw hraw]
    exact afterEscapes_flight h
  · rw [referenceByte_pending hmode hesc]
    exact afterEscapes_flight h
  · cases hq : s.rxq with
    | nil => rw [referenceByte_suspend hhere hq]; rfl
    | cons x q => rw [referenceByte_pair hhere hq]; exact afterEscapes_flight h
  · rw [referenceByte_start hhere]; rfl

/-- Settles O37: one row turn fetches the byte, and at most three run the rows that it meets. -/
theorem rowsMakeTheByteStep : Obligations.RowsMakeTheByteStep := by
  intro s b q hcall hflight hq
  have hrows : runRows 3 (flyTo b false .escape { s with rxq := q }) =
      referenceByte b { s with rxq := q } :=
    byteStep_of_flight_none (s := { s with rxq := q }) b hflight
  have hend : (runRows 3 (flyTo b false .escape { s with rxq := q })).flight = none := by
    rw [hrows]
    exact referenceByte_flight hflight
  obtain ⟨k, hk, hk3, hrun⟩ := runsTo_runRows 3 (f := { byte := b, fromEscape := false, order := .escape })
    (s := flyTo b false .escape { s with rxq := q }) hcall rfl hend
  rw [hrows] at hrun
  refine ⟨k + 1, Nat.succ_le_succ hk, Nat.succ_le_succ hk3, _, ?_, hrun⟩
  have hblock : blockStep true (s.withTurns (List.replicate k .row)) =
      exec .decFetch (s.withTurns (List.replicate k .row)) := blockStep_row hcall hflight
  refine (step_row_turn rfl).trans (hblock.trans ?_)
  show Outcome.next (decFetch _) = _
  simp only [decFetch, withTurns_rxq, hq]
  rfl

/-! ### O38, O39 and O40: units at a position of the cursor -/

/-- Before the frame nothing is summed. -/
theorem afterEscapes_of_lt {b : Byte} {s : State} (h : s.dec.idx < 3) :
    afterEscapes b s = dispatchByte b s := by
  rw [afterEscapes, addToSum, if_neg (by omega)]

theorem passesRaw_of_idx_zero {s : State} (b : Byte) (hesc : s.dec.escaping = false)
    (h : s.dec.idx = 0) : s.passesRaw b :=
  fun _ => ⟨hesc, fun hlt => by omega⟩

theorem exec_start_eq {s : State} (h : s.flight = none) :
    exec .start s = .next (referenceByte startByte s) :=
  congrArg Outcome.next (byteStep_of_flight_none startByte h)

theorem exec_escape_eq {s : State} (h : s.flight = none) :
    exec .escape s = .next (referenceByte escapeByte s) :=
  congrArg Outcome.next (byteStep_of_flight_none escapeByte h)

/-- Settles O38, by the way of the two bytes at offset 0 and past it. -/
theorem startAndEscapeUnits : Obligations.StartAndEscapeUnits := by
  intro s hflight hesc
  have hhere (hidx : 0 < s.dec.idx) (hmode : s.cfg.escapedMode = true) : s.escapesHere = true :=
    escapesHere_iff.mpr ⟨hmode, hesc, hidx⟩
  have hland (t : State) (ht : t.flight = none) : { t with call := .idle } = stopCall t := by
    rw [stopCall, ← ht]
  rw [exec_start_eq hflight, exec_escape_eq hflight]
  refine ⟨fun h0 => ?_, fun hidx hmode => ?_, fun h0 => ?_, fun hidx hmode hq => ?_⟩
  · rw [referenceByte_raw (passesRaw_of_idx_zero _ hesc h0), afterEscapes_of_lt (by omega),
      dispatchByte_start h0]
    rfl
  · rw [referenceByte_start (hhere hidx hmode)]
    exact congrArg Outcome.next (hland (record .incoming .unexpectedPacketStart s) hflight).symm
  · rw [referenceByte_raw (passesRaw_of_idx_zero _ hesc h0), afterEscapes_of_lt (by omega),
      dispatchByte_nostart h0 (by decide)]
    exact congrArg Outcome.next (hland (record .incoming .packetIncomplete s) hflight).symm
  · rw [referenceByte_suspend (hhere hidx hmode) hq]
    exact congrArg Outcome.next
      (hland { s with dec := { s.dec with escaping := true } } hflight).symm

/-- The state after a frame byte below the ceiling is stored and summed. -/
def State.frameByteStored (s : State) (b : Byte) : State :=
  { s with
    inp := s.inp.stored s.cfg.mIn (s.dec.idx - 3) b
    dec := { s.dec with idx := s.dec.idx + 1, csum := s.dec.csum + b } }

theorem pktSetOp_within {s : State} {i : Nat} (b : Byte) (hi : i < s.cfg.mIn)
    (hlen : i < s.inp.frameLength.toNat) :
    pktSetOp .incoming i b s = { s with inp := s.inp.stored s.cfg.mIn i b } := by
  have hlt := s.inp.frameLength.isLt
  obtain ⟨len, hpkt, hfit⟩ := pktSetOp_of_lt (p := .incoming) (i := i) (s := s) b hi
  obtain ⟨hl, hd⟩ := hfit (by omega)
  have hsame : len = (s.inp.stored s.cfg.mIn i b).frameLength := by
    refine BitVec.eq_of_toNat_eq (hl.trans ?_)
    rw [pkt_incoming, stored_frameLength]
    omega
  rw [pktSetOp_packetOnly .incoming i b s, hpkt, hd, hsame]
  rfl

/-- The byte added to the running checksum, as step 3 does in the frame. -/
def State.summed (s : State) (b : Byte) : State :=
  { s with dec := { s.dec with csum := s.dec.csum + b } }

theorem afterEscapes_of_three_le {b : Byte} {s : State} (h : 3 ≤ s.dec.idx) :
    afterEscapes b s = dispatchByte b (s.summed b) :=
  congrArg (dispatchByte b) (if_pos h)

theorem afterEscapes_frameByte {s : State} (b : Byte) (hidx : 3 ≤ s.dec.idx)
    (hmax : s.dec.idx ≤ s.cfg.mIn) (hlen : s.dec.idx < s.inp.frameLength.toNat + 3) :
    afterEscapes b s = s.frameByteStored b := by
  have hck : s.dec.idx ≠ checksumOffset s.inp.frameLength := by
    simp only [checksumOffset]
    omega
  rw [afterEscapes_of_three_le hidx, dispatchByte_store (s := s.summed b) hidx hmax hck]
  exact congrArg (State.setIdx · (s.dec.idx + 1)) (pktSetOp_within (s := s.summed b) b
    (show s.dec.idx - 3 < s.cfg.mIn by omega) (show s.dec.idx - 3 < s.inp.frameLength.toNat by omega))

/-- What O39 and O40 say of the state after a frame byte. -/
theorem frameByteStored_spec (s : State) (b : Byte) :
    (s.frameByteStored b).inp.buf.read (s.dec.idx - 3) = some b ∧
      (∀ j, j ≠ s.dec.idx - 3 → (s.frameByteStored b).inp.buf.read j = s.inp.buf.read j) ∧
      (s.frameByteStored b).inp.cap =
        (if s.inp.cap ≤ s.dec.idx - 3 then min (s.dec.idx - 3 + 10) s.cfg.mIn else s.inp.cap) ∧
      (s.frameByteStored b).inp =
        { s.inp with buf := (s.frameByteStored b).inp.buf, cap := (s.frameByteStored b).inp.cap } ∧
      s.frameByteStored b = { s with
        inp := (s.frameByteStored b).inp
        dec := { s.dec with idx := s.dec.idx + 1, csum := s.dec.csum + b } } :=
  ⟨stored_read_same _ s.cfg.mIn .., fun _ hj => stored_read_ne _ s.cfg.mIn _ _ hj,
    stored_cap_eq _ _ _ b, rfl, rfl⟩

/-- Settles O39: the byte passes the escape remover raw. -/
theorem frameByteUnits : Obligations.FrameByteUnits := by
  intro s i b hi _ he hb hflight hesc hidx hmax hlen
  have hraw : s.passesRaw b := fun hmode =>
    ⟨hesc, fun _ => (hb.resolve_left (by simp [hmode])).symm⟩
  refine ⟨s.frameByteStored b, ?_, frameByteStored_spec s b⟩
  rw [exec_of_encode_one s hi he, byteStep_of_flight_none b hflight, referenceByte_raw hraw,
    afterEscapes_frameByte b hidx hmax hlen]

/-- Settles O40: the pair leaves the escape remover as its de-escaped byte. -/
theorem escapedFrameByteUnits : Obligations.EscapedFrameByteUnits := by
  intro s i x hi he hmode hflight hesc hidx hmax hlen
  have hhere : s.escapesHere = true := escapesHere_iff.mpr ⟨hmode, hesc, by omega⟩
  refine ⟨s.frameByteStored (escapeXor x), ?_, frameByteStored_spec s (escapeXor x)⟩
  rw [exec_of_encode_two s hi he, escapePair,
    byteStep_of_flight_none (s := { s with rxq := x :: s.rxq }) _ hflight,
    referenceByte_pair (s := { s with rxq := x :: s.rxq }) hhere rfl]
  exact congrArg Outcome.next (afterEscapes_frameByte _ hidx hmax hlen)

end Sys2Proof.Machine

/-! O41 and O42: whole calls of the decoder (R170, R171, R172, R193, R195).

The drain loop of R170 is taken without its fuel (`State.drained`): every pass takes a byte of `RXQ`, so that
the fuel never runs out. One lemma says what a pass can do; the poll on the machine, and the split of its
bytes over two polls, are inductions over `RXQ` with it. -/

namespace Sys2Proof.Machine

open Host (Outcome)
open Function (Semiconj)

/-- The state with `RXQ` replaced. -/
def State.withRxq (q : List Byte) (s : State) : State := { s with rxq := q }

@[simp] theorem withRxq_rxq (q : List Byte) (s : State) : (s.withRxq q).rxq = q := rfl
@[simp] theorem withRxq_dec (q : List Byte) (s : State) : (s.withRxq q).dec = s.dec := rfl
@[simp] theorem withRxq_inp (q : List Byte) (s : State) : (s.withRxq q).inp = s.inp := rfl
@[simp] theorem withRxq_cfg (q : List Byte) (s : State) : (s.withRxq q).cfg = s.cfg := rfl
@[simp] theorem withRxq_call (q : List Byte) (s : State) : (s.withRxq q).call = s.call := rfl
@[simp] theorem withRxq_flight (q : List Byte) (s : State) : (s.withRxq q).flight = s.flight := rfl
@[simp] theorem withRxq_turns (q : List Byte) (s : State) : (s.withRxq q).turns = s.turns := rfl
@[simp] theorem withRxq_terminal (q : List Byte) (s : State) :
    (s.withRxq q).terminal = s.terminal := rfl
@[simp] theorem withRxq_escapesHere (q : List Byte) (s : State) :
    (s.withRxq q).escapesHere = s.escapesHere := rfl
@[simp] theorem withRxq_withRxq (q r : List Byte) (s : State) :
    (s.withRxq q).withRxq r = s.withRxq r := rfl

/-! ### What a pass of the loop can do -/

/-- The state with what the decoder writes replaced: `IN`, the cursor, the count of free values. -/
def State.decoded (s : State) (k : Packet) (c : Cursor) (d : Nat) : State :=
  { s with inp := k, dec := c, draws := d }

/-- The byte step goes on with the drain loop: no code is recorded and nothing is completed. -/
def State.goesOnAs (s t : State) : Prop :=
  ∃ k c d, t = s.decoded k c d ∧ k.errorCode = s.inp.errorCode ∧ c.complete = s.dec.complete

/-- The byte step ends the call in a terminal state. -/
def State.endsAs (s t : State) : Prop :=
  ∃ k c d, t = stopCall (s.decoded k c d) ∧ (c.complete = true ∨ k.errorCode ≠ .noError)

theorem endsAs_decoderError (s : State) {c : ErrorCode} (hc : c ≠ .noError) :
    s.endsAs (decoderError c s) :=
  ⟨{ s.inp with errorCode := c }, s.dec, s.draws, rfl, .inr hc⟩

theorem dispatchByte_outcome (b : Byte) (s : State) :
    s.goesOnAs (dispatchByte b s) ∨ s.endsAs (dispatchByte b s) := by
  obtain ⟨h0, rfl⟩ | ⟨h0, hb⟩ | h1 | h2 | ⟨h3, hover⟩ | ⟨h3, hmax, hck, hsum⟩ |
    ⟨h3, hmax, hck, hsum⟩ | ⟨h3, hmax, hck⟩ := dispatch_cases b s
  · rw [dispatchByte_start h0]
    exact .inl ⟨s.inp, { s.dec with idx := 1 }, s.draws, rfl, rfl, rfl⟩
  · rw [dispatchByte_nostart h0 hb]
    exact .inr (endsAs_decoderError s nofun)
  · rw [dispatchByte_lenMsb h1]
    exact .inl ⟨s.inp.withLength _, { s.dec with idx := 2 }, s.draws, rfl, rfl, rfl⟩
  · rw [dispatchByte_lenLsb h2]
    exact .inl ⟨s.inp.withLength _, { s.dec with idx := 3 }, s.draws, rfl, rfl, rfl⟩
  · rw [dispatchByte_overlen h3 hover]
    exact .inr (endsAs_decoderError s nofun)
  · rw [dispatchByte_ckOk h3 hmax hck hsum]
    exact .inr ⟨{ s.inp with checksum := b, errorCode := .noError }, { s.dec with complete := true },
      s.draws, rfl, .inl rfl⟩
  · rw [dispatchByte_ckFail h3 hmax hck hsum]
    exact .inr (endsAs_decoderError s nofun)
  · rw [dispatchByte_store h3 hmax hck]
    obtain ⟨len, hpkt, _⟩ := pktSetOp_of_lt (p := .incoming) (i := s.dec.idx - 3) (s := s) b
      (show s.dec.idx - 3 < s.cfg.mIn by omega)
    have hframe := (pktSetOp_packetOnly .incoming (s.dec.idx - 3) b s).trans
      (congrArg (fun k => { s.setPkt .incoming k with
        draws := (pktSetOp .incoming (s.dec.idx - 3) b s).draws }) hpkt)
    exact .inl ⟨(s.inp.stored s.cfg.mIn (s.dec.idx - 3) b).withLength len,
      { s.dec with idx := s.dec.idx + 1 }, (pktSetOp .incoming (s.dec.idx - 3) b s).draws,
      congrArg (State.setIdx · (s.dec.idx + 1)) hframe, rfl, rfl⟩

theorem goesOnAs_trans {s t u : State} (h : s.goesOnAs t) (h' : t.goesOnAs u) : s.goesOnAs u := by
  obtain ⟨k, c, d, rfl, hk, hc⟩ := h
  obtain ⟨k', c', d', rfl, hk', hc'⟩ := h'
  exact ⟨k', c', d', rfl, hk'.trans hk, hc'.trans hc⟩

theorem endsAs_of_goesOnAs {s t u : State} (h : s.goesOnAs t) (h' : t.endsAs u) : s.endsAs u := by
  obtain ⟨k, c, d, rfl, _⟩ := h
  obtain ⟨k', c', d', rfl, hterm⟩ := h'
  exact ⟨k', c', d', rfl, hterm⟩

theorem goesOnAs_addToSum (b : Byte) (s : State) : s.goesOnAs (addToSum b s) := by
  unfold addToSum
  split
  · exact ⟨s.inp, { s.dec with csum := s.dec.csum + b }, s.draws, rfl, rfl, rfl⟩
  · exact ⟨s.inp, s.dec, s.draws, rfl, rfl, rfl⟩

theorem afterEscapes_outcome (b : Byte) (s : State) :
    s.goesOnAs (afterEscapes b s) ∨ s.endsAs (afterEscapes b s) :=
  (dispatchByte_outcome b (addToSum b s)).imp (goesOnAs_trans (goesOnAs_addToSum b s))
    (endsAs_of_goesOnAs (goesOnAs_addToSum b s))

/-- The state with an escape pending. -/
def State.withEscape (s : State) : State := { s with dec := { s.dec with escaping := true } }

/-- A pass goes on, ends the call in a terminal state, or suspends it; it takes at most one more byte, the
partner of an ESCAPE. -/
theorem referenceByte_outcome (b : Byte) (s : State) :
    (∃ q, (s.rxq = q ∨ ∃ x, s.rxq = x :: q) ∧
      ((s.withRxq q).goesOnAs (referenceByte b s) ∨ (s.withRxq q).endsAs (referenceByte b s))) ∨
    (s.escapesHere = true ∧ b = escapeByte ∧ s.rxq = [] ∧
      referenceByte b s = stopCall s.withEscape) := by
  obtain hraw | ⟨hmode, hesc⟩ | ⟨hhere, rfl⟩ | ⟨hhere, rfl⟩ := passesRaw_or b s
  · rw [referenceByte_raw hraw]
    exact .inl ⟨s.rxq, .inl rfl, afterEscapes_outcome b s⟩
  · rw [referenceByte_pending hmode hesc]
    have hstep : s.goesOnAs { s with dec := { s.dec with escaping := false } } :=
      ⟨s.inp, { s.dec with escaping := false }, s.draws, rfl, rfl, rfl⟩
    exact .inl ⟨s.rxq, .inl rfl, (afterEscapes_outcome _ _).imp (goesOnAs_trans hstep)
      (endsAs_of_goesOnAs hstep)⟩
  · by_cases hq : s.rxq = []
    · exact .inr ⟨hhere, rfl, hq, referenceByte_suspend hhere hq⟩
    · obtain ⟨x, q, hq⟩ := List.exists_cons_of_ne_nil hq
      rw [referenceByte_pair hhere hq]
      exact .inl ⟨q, .inr ⟨x, hq⟩, afterEscapes_outcome _ (s.withRxq q)⟩
  · rw [referenceByte_start hhere]
    exact .inl ⟨s.rxq, .inl rfl, .inr (endsAs_decoderError s nofun)⟩

/-! ### The drain loop without its fuel -/

/-- The state in which the drain loop of R170 ends. -/
def State.drained (s : State) : State := referenceDrain (s.rxq.length + 1) s

/-- The drain loop runs and stands between two bytes. -/
structure State.draining (s : State) : Prop where
  call : s.call = .drain
  flight : s.flight = none

theorem referenceByte_rxq_length (b : Byte) (s : State) :
    (referenceByte b s).rxq.length ≤ s.rxq.length := by
  obtain ⟨q, hq, ⟨_, _, _, h, _⟩ | ⟨_, _, _, h, _⟩⟩ | ⟨_, _, hq, h⟩ := referenceByte_outcome b s
  · rw [h]
    obtain rfl | ⟨x, hx⟩ := hq
    · exact le_rfl
    · rw [hx]; exact Nat.le_succ q.length
  · rw [h]
    obtain rfl | ⟨x, hx⟩ := hq
    · exact le_rfl
    · rw [hx]; exact Nat.le_succ q.length
  · rw [h]
    exact le_rfl

theorem referenceDrain_fuel {n m : Nat} {s : State} (hn : s.rxq.length < n)
    (hm : s.rxq.length < m) : referenceDrain n s = referenceDrain m s := by
  induction n generalizing m s with
  | zero => omega
  | succ n ih =>
    obtain ⟨m, rfl⟩ : ∃ m', m = m' + 1 := ⟨m - 1, by omega⟩
    cases hq : s.rxq with
    | nil => simp only [referenceDrain, hq]
    | cons b q =>
      have hlen := referenceByte_rxq_length b { s with rxq := q }
      rw [hq, List.length_cons] at hn hm
      simp only [referenceDrain, hq]
      rw [ih (m := m) (lt_of_le_of_lt hlen (Nat.lt_of_succ_lt_succ hn))
        (lt_of_le_of_lt hlen (Nat.lt_of_succ_lt_succ hm))]

theorem drained_of_nil {s : State} (hq : s.rxq = []) : s.drained = stopCall s := by
  simp only [State.drained, referenceDrain, hq]

theorem drained_of_cons {s : State} {b : Byte} {q : List Byte} (hq : s.rxq = b :: q) :
    s.drained =
      if (referenceByte b (s.withRxq q)).call = .idle then referenceByte b (s.withRxq q)
      else (referenceByte b (s.withRxq q)).drained := by
  have hlen := referenceByte_rxq_length b (s.withRxq q)
  have hfuel := referenceDrain_fuel (n := s.rxq.length) (s := referenceByte b (s.withRxq q))
    (by rw [hq]; exact Nat.lt_succ_of_le hlen) (Nat.lt_succ_self _)
  rw [State.drained, State.drained, ← hfuel]
  simp only [referenceDrain, hq, State.withRxq]

theorem draining_of_goesOnAs {s t : State} (hs : s.draining) (h : s.goesOnAs t) : t.draining := by
  obtain ⟨k, c, d, rfl, _⟩ := h
  exact ⟨hs.call, hs.flight⟩

/-- A draining state is not idle: the loop goes on from it. -/
theorem drained_of_goesOn {s : State} {b : Byte} {q : List Byte} (hq : s.rxq = b :: q)
    (h : (referenceByte b (s.withRxq q)).draining) :
    s.drained = (referenceByte b (s.withRxq q)).drained := by
  rw [drained_of_cons hq, if_neg (by rw [h.call]; nofun)]

theorem drained_of_stop {s : State} {b : Byte} {q : List Byte} (hq : s.rxq = b :: q)
    (h : (referenceByte b (s.withRxq q)).call = .idle) :
    s.drained = referenceByte b (s.withRxq q) := by
  rw [drained_of_cons hq, if_pos h]

/-- A pass leaves the loop draining with fewer bytes, or the call idle; the schedule stays. -/
theorem referenceByte_draining {s : State} (b : Byte) (hs : s.draining) :
    ((referenceByte b s).draining ∨ (referenceByte b s).call = .idle) ∧
      (referenceByte b s).turns = s.turns := by
  obtain ⟨q, _, h | ⟨k, c, d, h, _⟩⟩ | ⟨_, _, _, h⟩ := referenceByte_outcome b s
  · refine ⟨.inl (draining_of_goesOnAs (s := s.withRxq q) ⟨hs.call, hs.flight⟩ h), ?_⟩
    obtain ⟨k, c, d, h, _⟩ := h
    rw [h]
    rfl
  · exact ⟨.inr (by rw [h]; rfl), by rw [h]; rfl⟩
  · exact ⟨.inr (by rw [h]; rfl), by rw [h]; rfl⟩

/-! ### The machine's poll -/

/-- A move of the block in the drain loop is one pass of R170 on the byte at the head of `RXQ`. -/
theorem blockStep_draining {s : State} {b : Byte} {q : List Byte} (hs : s.draining)
    (hq : s.rxq = b :: q) : blockStep false s = .next (referenceByte b (s.withRxq q)) := by
  have hstep {i : Instr} {rest : List Byte} (h : decode s.wireContext (b :: q) = .ok (i, rest)) :
      blockStep false s = exec i (s.withRxq rest) :=
    blockStep_unit hs.call hs.flight (hq ▸ h)
  by_cases hesc : s.escapesHere = true ∧ b = escapeByte
  · obtain ⟨hhere, rfl⟩ := hesc
    cases q with
    | nil => exact (hstep (decode_lone_escape hhere)).trans (exec_escape_eq hs.flight)
    | cons x rest =>
      obtain ⟨hunit, _, henc⟩ := escapeRow_isUnitOf x
      rw [hstep (decode_pair x rest hhere), exec_of_encode_two _ hunit henc, escapePair]
      exact congrArg Outcome.next
        (byteStep_of_flight_none (s := s.withRxq (x :: rest)) escapeByte hs.flight)
  · obtain ⟨hunit, _, henc⟩ := singleByteRow_isUnitOf s.wireContext b
    rw [hstep (decode_raw q hesc), exec_of_encode_one _ hunit henc,
      byteStep_of_flight_none (s := s.withRxq q) b hs.flight]

theorem step_draining {s : State} {b : Byte} {q : List Byte} (hturns : s.turns = [])
    (hs : s.draining) (hq : s.rxq = b :: q) :
    step s = .next (referenceByte b (s.withRxq q)) :=
  (step_turns_nil hturns).trans (blockStep_draining hs hq)

/-- The machine drains `RXQ` to the state of R170, in at most one step more than there are bytes. -/
theorem runsTo_drained {s : State} (hturns : s.turns = []) (hs : s.draining) :
    s.drained.call = .idle ∧ ∃ n, n ≤ s.rxq.length + 1 ∧ runsTo n s s.drained := by
  induction hlen : s.rxq.length using Nat.strong_induction_on generalizing s with
  | _ len ih =>
    cases hq : s.rxq with
    | nil =>
      have hstep : step s = .next s.drained := by
        rw [step_turns_nil hturns, blockStep_drained hs.call hs.flight hq, drained_of_nil hq]
        show Outcome.next (decFetch s) = _
        simp only [decFetch, hq]
      exact ⟨by rw [drained_of_nil hq]; rfl, 1, by omega, _, hstep, rfl⟩
    | cons b q =>
      have hstep := step_draining hturns hs hq
      obtain ⟨hnext | hstop, hturns'⟩ :=
        referenceByte_draining (s := s.withRxq q) b ⟨hs.call, hs.flight⟩
      · have hshort := referenceByte_rxq_length b (s.withRxq q)
        rw [withRxq_rxq] at hshort
        have hlt : q.length < len := by rw [← hlen, hq]; exact Nat.lt_succ_self _
        obtain ⟨hidle, n, hn, hrun⟩ :=
          ih _ (lt_of_le_of_lt hshort hlt) (hturns'.trans hturns) hnext rfl
        rw [drained_of_goesOn hq hnext]
        exact ⟨hidle, n + 1, by omega, _, hstep, hrun⟩
      · rw [drained_of_stop hq hstop]
        exact ⟨hstop, 1, by omega, _, hstep, rfl⟩

/-! ### The entry of a poll -/

/-- A poll after its entry step: the drain loop begins. -/
def State.entered (s : State) : State := { referenceEntry s with call := .drain, flight := none }

theorem referenceEntry_of_terminal {s : State} (h : s.terminal = true) :
    referenceEntry s = restartAt (if s.inp.errorCode = .unexpectedPacketStart then 1 else 0) s :=
  if_pos (terminal_iff.mp h)

theorem referenceEntry_of_not_terminal {s : State} (h : s.terminal = false) :
    referenceEntry s = s := by
  obtain ⟨hc, he⟩ := terminal_eq_false_iff.mp h
  exact if_neg (by simp [hc, he])

theorem referenceEntry_rxq (s : State) : (referenceEntry s).rxq = s.rxq := by
  unfold referenceEntry
  split <;> rfl

theorem entered_rxq (s : State) : s.entered.rxq = s.rxq := referenceEntry_rxq s

theorem entered_turns (s : State) : s.entered.turns = s.turns := by
  show (referenceEntry s).turns = _
  unfold referenceEntry
  split <;> rfl

theorem entered_cfg (s : State) : s.entered.cfg = s.cfg := by
  show (referenceEntry s).cfg = _
  unfold referenceEntry
  split <;> rfl

theorem entered_draining (s : State) : s.entered.draining := ⟨rfl, rfl⟩

/-- A call never drains in a terminal state. -/
theorem entered_terminal (s : State) : s.entered.terminal = false := by
  show (referenceEntry s).terminal = false
  cases h : s.terminal with
  | false => rw [referenceEntry_of_not_terminal h, h]
  | true => rw [referenceEntry_of_terminal h]; rfl

theorem entered_withRxq (q : List Byte) (s : State) :
    (s.withRxq q).entered = s.entered.withRxq q := by
  unfold State.entered referenceEntry
  split_ifs <;> first | rfl | contradiction

theorem referencePoll_eq_drained (s : State) : referencePoll s = s.entered.drained := by
  rw [State.drained, entered_rxq]
  rfl

/-- The entry row of R171 makes the entry step of R170. -/
theorem step_entry {s : State} (hturns : s.turns = []) (hcall : s.call = .entry)
    (hflight : s.flight = none) : step s = .next s.entered := by
  have hland (t : State) (ht : t.flight = none) : { t with call := .drain } =
      { t with call := .drain, flight := none } := by rw [← ht]
  obtain ⟨hrestart, hresume, hcontinue, _⟩ := entryAndFetchRows s 0 []
  rw [step_turns_nil hturns, blockStep_entry hcall, State.entered]
  cases hterm : s.terminal with
  | false =>
    obtain ⟨hc, he⟩ := terminal_eq_false_iff.mp hterm
    obtain ⟨hrow, hexec⟩ := hcontinue hc he
    rw [hrow, hexec, referenceEntry_of_not_terminal hterm, hland s hflight]
  | true =>
    rw [referenceEntry_of_terminal hterm]
    by_cases hcode : s.inp.errorCode = .unexpectedPacketStart
    · obtain ⟨hrow, hexec⟩ := hresume hcode
      rw [hrow, hexec, if_pos hcode]
      exact congrArg Outcome.next (hland (restartAt 1 s) hflight)
    · obtain ⟨hrow, hexec⟩ := hrestart (terminal_iff.mp hterm) hcode
      rw [hrow, hexec, if_neg hcode]
      exact congrArg Outcome.next (hland (restartAt 0 s) hflight)

/-- A poll runs to the result of R170, where the call has returned. -/
theorem poll_runs (s : State) (bytes : List Byte) :
    (referencePoll (s.polling bytes)).call = .idle ∧
      ∃ n, n ≤ bytes.length + 2 ∧ runsTo n (s.polling bytes) (referencePoll (s.polling bytes)) := by
  obtain ⟨hidle, n, hn, hrun⟩ := runsTo_drained (s := (s.polling bytes).entered)
    ((entered_turns _).trans rfl) (entered_draining _)
  rw [referencePoll_eq_drained]
  rw [entered_rxq] at hn
  exact ⟨hidle, n + 1, Nat.succ_le_succ hn, _, step_entry rfl rfl rfl, hrun⟩

/-- Settles O41: the entry step, and then the drain loop by induction over `RXQ`. -/
theorem pollRunsTheAlgorithm : Obligations.PollRunsTheAlgorithm := poll_runs

/-! ### O42: a poll and the bytes behind its own -/

section
variable (q : List Byte)

theorem withRxq_sparesPacket : SparesPacket .incoming (State.withRxq q) where
  pkt _ := rfl
  cfg _ := rfl
  setPkt _ _ := rfl
  drawByte _ := rfl
  fitLength _ := semiconj_ite (fun _ => Iff.rfl) (fun _ => rfl) (fun _ => rfl)
  answer _ _ := rfl

theorem dispatchByte_withRxq (b : Byte) :
    Semiconj (dispatchByte b) (State.withRxq q) (State.withRxq q) :=
  have hstore : Semiconj
      (fun s => (pktSetOp .incoming (s.dec.idx - 3) b s).setIdx (s.dec.idx + 1))
      (State.withRxq q) (State.withRxq q) := fun s =>
    congrArg (State.setIdx · (s.dec.idx + 1))
      ((withRxq_sparesPacket q).pktSetOp (s.dec.idx - 3) b s)
  have hcheck := semiconj_ite (P := fun s => s.dec.csum = 0xFF) (fun _ => Iff.rfl)
    (f := fun s => stopCall { s with
      dec := { s.dec with complete := true }
      inp := { s.inp with checksum := b, errorCode := .noError } })
    (g := decoderError .checksumFailure) (w := State.withRxq q) (fun _ => rfl) (fun _ => rfl)
  semiconj_ite (fun _ => Iff.rfl)
    (semiconj_ite (P := fun _ => b = 0x7E) (fun _ => Iff.rfl) (fun _ => rfl) fun _ => rfl)
    (semiconj_ite (fun _ => Iff.rfl) (fun _ => rfl)
      (semiconj_ite (fun _ => Iff.rfl) (fun _ => rfl)
        (semiconj_ite (fun _ => Iff.rfl) (fun _ => rfl)
          (semiconj_ite (fun _ => Iff.rfl) hcheck hstore))))

theorem afterEscapes_withRxq (b : Byte) :
    Semiconj (afterEscapes b) (State.withRxq q) (State.withRxq q) :=
  (dispatchByte_withRxq q b).comp_left (semiconj_guarded (fun _ => Iff.rfl) fun _ => rfl)

end

/-- Steps 3 and 4 leave `RXQ`. -/
theorem afterEscapes_rxq (b : Byte) (s : State) : (afterEscapes b s).rxq = s.rxq := by
  obtain ⟨_, _, _, h, _⟩ | ⟨_, _, _, h, _⟩ := afterEscapes_outcome b s <;> rw [h] <;> rfl

/-- Bytes behind those that a pass takes stay where they are, unless the pass suspends for want of them. -/
theorem referenceByte_append {b : Byte} {s : State} (v : List Byte)
    (h : ¬ (s.escapesHere = true ∧ b = escapeByte ∧ s.rxq = [])) :
    referenceByte b (s.withRxq (s.rxq ++ v)) =
      (referenceByte b s).withRxq ((referenceByte b s).rxq ++ v) := by
  obtain hraw | ⟨hmode, hesc⟩ | ⟨hhere, rfl⟩ | ⟨hhere, rfl⟩ := passesRaw_or b s
  · rw [referenceByte_raw hraw, referenceByte_raw (s := s.withRxq (s.rxq ++ v)) hraw, afterEscapes_rxq]
    exact afterEscapes_withRxq (s.rxq ++ v) b s
  · rw [referenceByte_pending hmode hesc, referenceByte_pending (s := s.withRxq (s.rxq ++ v)) hmode hesc,
      afterEscapes_rxq]
    exact afterEscapes_withRxq (s.rxq ++ v) _ { s with dec := { s.dec with escaping := false } }
  · cases hq : s.rxq with
    | nil => exact absurd ⟨hhere, rfl, hq⟩ h
    | cons x q =>
      rw [referenceByte_pair hhere hq, List.cons_append,
        referenceByte_pair (s := s.withRxq (x :: (q ++ v))) hhere rfl, afterEscapes_rxq]
      exact afterEscapes_withRxq (q ++ v) _ (s.withRxq q)
  · rw [referenceByte_start hhere, referenceByte_start (s := s.withRxq (s.rxq ++ v)) hhere]
    rfl

/-- A returned call's drain loop taken up again, on the bytes `v`. -/
def State.resumed (s : State) (v : List Byte) : State := { s with call := .drain, rxq := v }

theorem resumed_stopCall {s : State} (hs : s.draining) (v : List Byte) :
    (stopCall s).resumed v = s.withRxq v := by
  obtain ⟨hcall, hflight⟩ := hs
  show { s with call := .drain, flight := none, rxq := v } = s.withRxq v
  rw [← hcall, ← hflight]
  rfl

theorem terminal_of_goesOnAs {s t : State} (h : s.goesOnAs t) : t.terminal = s.terminal := by
  obtain ⟨k, c, d, rfl, hk, hc⟩ := h
  show (c.complete || k.isError) = (s.dec.complete || s.inp.isError)
  rw [hc, Packet.isError, hk, Packet.isError]

theorem terminal_of_endsAs {s t : State} (h : s.endsAs t) : t.terminal = true ∧ t.call = .idle := by
  obtain ⟨k, c, d, rfl, hterm⟩ := h
  exact ⟨terminal_iff.mpr hterm, rfl⟩

/-- What a drain loop does when `v` stands behind its bytes: a terminal end leaves `v`; any other end has
taken every byte, and the loop goes on with `v` as a later call would. -/
structure DrainsBefore (v : List Byte) (s : State) : Prop where
  terminal : s.drained.terminal = true →
    (s.withRxq (s.rxq ++ v)).drained = s.drained.withRxq (s.drained.rxq ++ v)
  open_ : s.drained.terminal = false → s.drained.rxq = [] ∧
    (s.withRxq (s.rxq ++ v)).drained = (s.drained.resumed v).drained

/-- A suspended escape is completed alike by the next byte of this call and by the first of the next. -/
theorem drainsBefore_of_suspend {s : State} (v : List Byte) (hs : s.draining)
    (hterm : s.terminal = false) (hhere : s.escapesHere = true) (hq : s.rxq = [escapeByte]) :
    DrainsBefore v s := by
  obtain ⟨hmode, hesc, _⟩ := escapesHere_iff.mp hhere
  have hpass : referenceByte escapeByte (s.withRxq []) = stopCall (s.withRxq []).withEscape :=
    referenceByte_suspend (s := s.withRxq []) hhere rfl
  have hdrained : s.drained = stopCall (s.withRxq []).withEscape :=
    (drained_of_stop hq (congrArg State.call hpass)).trans hpass
  have hopen : s.drained.terminal = false := by rw [hdrained]; exact hterm
  refine ⟨fun h => absurd h (by simp [hopen]), fun _ => ⟨by rw [hdrained]; rfl, ?_⟩⟩
  rw [hdrained, hq, resumed_stopCall (s := (s.withRxq []).withEscape) ⟨hs.call, hs.flight⟩]
  cases v with
  | nil =>
    rw [List.append_nil, ← hq, drained_of_nil (s := ((s.withRxq []).withEscape).withRxq []) rfl]
    exact hdrained
  | cons x rest =>
    have hpair : referenceByte escapeByte (s.withRxq (x :: rest)) =
        afterEscapes (escapeXor x) (s.withRxq rest) :=
      referenceByte_pair (s := s.withRxq (x :: rest)) hhere rfl
    have hpending : referenceByte x (s.withRxq rest).withEscape =
        afterEscapes (escapeXor x) { s.withRxq rest with dec := { s.dec with escaping := false } } :=
      referenceByte_pending (s := (s.withRxq rest).withEscape) hmode rfl
    have hsame : { s.dec with escaping := false } = s.dec := by rw [← hesc]
    rw [hsame] at hpending
    have hnext := hpending.trans hpair.symm
    have hone : (s.withRxq (escapeByte :: x :: rest)).drained = _ := drained_of_cons rfl
    have htwo : ((s.withRxq []).withEscape.withRxq (x :: rest)).drained = _ := drained_of_cons rfl
    refine hone.trans (Eq.trans ?_ htwo.symm)
    exact (congrArg (fun t : State => if t.call = .idle then t else t.drained) hnext).symm

theorem drains_before (v : List Byte) {s : State} (hs : s.draining) (hterm : s.terminal = false) :
    DrainsBefore v s := by
  induction hlen : s.rxq.length using Nat.strong_induction_on generalizing s with
  | _ len ih =>
    cases hq : s.rxq with
    | nil =>
      have hdrained := drained_of_nil hq
      have hopen : s.drained.terminal = false := by rw [hdrained]; exact hterm
      refine ⟨fun h => absurd h (by simp [hopen]), fun _ => ⟨by rw [hdrained]; exact hq, ?_⟩⟩
      rw [hdrained, resumed_stopCall hs, hq, List.nil_append]
    | cons b q =>
      have hmore : (s.withRxq (s.rxq ++ v)).rxq = b :: (q ++ v) := by rw [hq]; rfl
      by_cases hsusp : s.escapesHere = true ∧ b = escapeByte ∧ q = []
      · obtain ⟨hhere, rfl, rfl⟩ := hsusp
        exact drainsBefore_of_suspend v hs hterm hhere hq
      have happ := referenceByte_append (b := b) (s := s.withRxq q) v hsusp
      obtain ⟨r, _, hgo | hend⟩ | ⟨hhere, hb, hnil, _⟩ := referenceByte_outcome b (s.withRxq q)
      · have hnext : (referenceByte b (s.withRxq q)).draining :=
          draining_of_goesOnAs (s := s.withRxq r) ⟨hs.call, hs.flight⟩ hgo
        have hshort := referenceByte_rxq_length b (s.withRxq q)
        rw [withRxq_rxq] at hshort
        have hlt : q.length < len := by rw [← hlen, hq]; exact Nat.lt_succ_self _
        have hrest := ih _ (lt_of_le_of_lt hshort hlt) hnext
          ((terminal_of_goesOnAs hgo).trans hterm) rfl
        have hmoreDrained : (s.withRxq (s.rxq ++ v)).drained =
            ((referenceByte b (s.withRxq q)).withRxq
              ((referenceByte b (s.withRxq q)).rxq ++ v)).drained := by
          rw [drained_of_goesOn hmore (happ ▸ ⟨hnext.call, hnext.flight⟩)]
          exact congrArg State.drained happ
        refine ⟨?_, ?_⟩ <;> rw [drained_of_goesOn hq hnext, hmoreDrained]
        · exact hrest.terminal
        · exact hrest.open_
      · obtain ⟨hterm', hidle⟩ := terminal_of_endsAs hend
        have hdrained := drained_of_stop hq hidle
        refine ⟨fun _ => ?_, fun h => absurd h (by simp [hdrained, hterm'])⟩
        rw [hdrained, drained_of_stop hmore (happ ▸ hidle)]
        exact happ
      · exact absurd ⟨hhere, hb, hnil⟩ hsusp

/-- A drain loop ends with the schedule it began with, and no byte in flight. -/
theorem drained_turns_flight {s : State} (hs : s.draining) :
    s.drained.turns = s.turns ∧ s.drained.flight = none := by
  induction hlen : s.rxq.length using Nat.strong_induction_on generalizing s with
  | _ len ih =>
    cases hq : s.rxq with
    | nil => rw [drained_of_nil hq]; exact ⟨rfl, rfl⟩
    | cons b q =>
      obtain ⟨hnext | hstop, hturns⟩ :=
        referenceByte_draining (s := s.withRxq q) b ⟨hs.call, hs.flight⟩
      · have hshort := referenceByte_rxq_length b (s.withRxq q)
        rw [withRxq_rxq] at hshort
        have hlt : q.length < len := by rw [← hlen, hq]; exact Nat.lt_succ_self _
        obtain ⟨hturns', hflight⟩ := ih _ (lt_of_le_of_lt hshort hlt) hnext rfl
        rw [drained_of_goesOn hq hnext]
        exact ⟨hturns'.trans hturns, hflight⟩
      · rw [drained_of_stop hq hstop]
        exact ⟨hturns, referenceByte_flight hs.flight⟩

/-- A poll from the state that an open poll has left takes its drain loop up again. -/
theorem entered_polling {a : State} (v : List Byte) (hterm : a.terminal = false)
    (hturns : a.turns = []) (hflight : a.flight = none) :
    (a.polling v).entered = a.resumed v := by
  rw [State.entered, referenceEntry_of_not_terminal (s := a.polling v) hterm]
  show { a with call := .drain, flight := none, turns := [], rxq := v } = a.resumed v
  rw [← hflight, ← hturns]
  rfl

/-- Settles O42: the drain loop on `u ++ v` is that on `u` with `v` behind its bytes. -/
theorem incrementalEquivalence : Obligations.IncrementalEquivalence := by
  intro s u v
  obtain ⟨hidleA, n, _, hrunA⟩ := poll_runs s u
  obtain ⟨hidleW, m, _, hrunW⟩ := poll_runs s (u ++ v)
  refine ⟨n, m, _, _, hrunA, hrunW, hidleA, hidleW, ?_⟩
  have hdrains := drains_before v (entered_draining (s.polling u)) (entered_terminal _)
  have hmore : (s.polling (u ++ v)).entered =
      (s.polling u).entered.withRxq ((s.polling u).entered.rxq ++ v) := by
    rw [entered_rxq]
    exact entered_withRxq (u ++ v) (s.polling u)
  rw [referencePoll_eq_drained, referencePoll_eq_drained, hmore]
  refine ⟨hdrains.terminal, fun hopen => ?_⟩
  obtain ⟨hempty, hlater⟩ := hdrains.open_ hopen
  obtain ⟨hturns, hflight⟩ := drained_turns_flight (entered_draining (s.polling u))
  obtain ⟨_, k, _, hrun⟩ := poll_runs (s.polling u).entered.drained v
  rw [referencePoll_eq_drained, entered_polling v hopen
    (hturns.trans ((entered_turns _).trans rfl)) hflight, ← hlater] at hrun
  exact ⟨hempty, k, hrun⟩

end Sys2Proof.Machine

/-! O43 and O44: a whole message in the drain loop (R100, R103, R190, R221).

`Receiving f n s` says that the first `n` bytes of a frame `f` have been stored and summed. A message leads
to it with `n = 0`, each frame byte raises `n` by one, and the checksum byte or the ceiling ends the call. -/

namespace Sys2Proof.Machine

/-! ### The cells that hold a frame -/

/-- The packet's cell `i` has been written and holds byte `i` of the frame `f`. -/
def Packet.holds (k : Packet) (f : List Byte) (i : Nat) : Prop :=
  i < k.cap ∧ k.buf.read i = f[i]?

section
variable {k : Packet} {f : List Byte} {i j maxLen : Nat} {v : Byte}

theorem peek_of_holds (h : k.holds f i) : k.peek i = f[i]? := (peek_of_lt h.1).trans h.2

/-- A store of a byte of the frame at its place keeps the cells that hold the frame, and adds its own. -/
theorem holds_stored (hi : i < maxLen) (hv : f[i]? = some v) (h : j = i ∨ k.holds f j) :
    (k.stored maxLen i v).holds f j := by
  by_cases hj : j = i
  · subst hj
    exact ⟨lt_stored_cap k v hi, (stored_read_same k maxLen j v).trans hv.symm⟩
  · obtain ⟨hcap, hread⟩ := h.resolve_left hj
    exact ⟨lt_of_lt_of_le hcap (stored_cap v hi), (stored_read_ne k maxLen i v hj).trans hread⟩

theorem frame_of_holds (hlen : f.length = k.frameLength.toNat) (h : ∀ i, i < f.length → k.holds f i) :
    k.frame = some f :=
  (frame_eq_some_iff k f).mpr
    ⟨hlen, fun i hi => (peek_of_holds (h i hi)).trans (List.getElem?_eq_getElem hi)⟩

end

/-! ### One byte of a message, as it stands on the wire -/

theorem putBytes_of_unreserved {m : Bool} {b : Byte} (h : (m && isReserved b) = false) :
    putBytes m b = [b] := by
  rw [putBytes, h]
  rfl

theorem putBytes_of_reserved {b : Byte} (h : isReserved b = true) :
    putBytes true b = [escapeByte, escapeXor b] := by
  rw [putBytes, h]
  rfl

/-- Past offset 0 the decoder takes back what `put` has made of a byte, in either mode. -/
theorem referenceByte_putBytes {s : State} {b : Byte} (q : List Byte) (hidx : 0 < s.dec.idx)
    (hesc : s.dec.escaping = false) :
    ∃ c r, putBytes s.cfg.escapedMode b ++ q = c :: r ∧
      referenceByte c (s.withRxq r) = afterEscapes b (s.withRxq q) := by
  cases hput : s.cfg.escapedMode && isReserved b with
  | false =>
    refine ⟨b, q, by rw [putBytes_of_unreserved hput]; rfl, referenceByte_raw fun hmode => ?_⟩
    have hmode' : s.cfg.escapedMode = true := hmode
    have hres : isReserved b = false := by simpa [hmode'] using hput
    exact ⟨hesc, fun _ => ⟨by rintro rfl; exact absurd hres (by decide),
      by rintro rfl; exact absurd hres (by decide)⟩⟩
  | true =>
    obtain ⟨hmode, hres⟩ := Bool.and_eq_true_iff.mp hput
    refine ⟨escapeByte, escapeXor b :: q, by rw [hmode, putBytes_of_reserved hres]; rfl, ?_⟩
    have hhere : s.escapesHere = true := escapesHere_iff.mpr ⟨hmode, hesc, hidx⟩
    exact (referenceByte_pair (s := s.withRxq (escapeXor b :: q)) hhere rfl).trans
      (by rw [escapeXor_escapeXor]; rfl)

section
variable {s : State} {b : Byte} {q : List Byte}

theorem drained_putBytes_goesOn (hidx : 0 < s.dec.idx) (hesc : s.dec.escaping = false)
    (hq : s.rxq = putBytes s.cfg.escapedMode b ++ q)
    (h : (afterEscapes b (s.withRxq q)).draining) :
    s.drained = (afterEscapes b (s.withRxq q)).drained := by
  obtain ⟨c, r, hput, href⟩ := referenceByte_putBytes (b := b) q hidx hesc
  rw [drained_of_goesOn (hq.trans hput) (href ▸ h), href]

theorem drained_putBytes_stop (hidx : 0 < s.dec.idx) (hesc : s.dec.escaping = false)
    (hq : s.rxq = putBytes s.cfg.escapedMode b ++ q)
    (h : (afterEscapes b (s.withRxq q)).call = .idle) :
    s.drained = afterEscapes b (s.withRxq q) := by
  obtain ⟨c, r, hput, href⟩ := referenceByte_putBytes (b := b) q hidx hesc
  rw [drained_of_stop (hq.trans hput) (href ▸ h), href]

end

/-! ### The start and the length of a message (R179, R181, R182) -/

/-- The drain loop at the start of a message: the cursor and the code are clear. -/
structure State.awaitsMessage (s : State) : Prop where
  draining : s.draining
  dec : s.dec = { idx := 0, escaping := false, csum := 0, complete := false }
  errorCode : s.inp.errorCode = .noError

theorem entered_awaitsMessage {s : State} (h : s.atMessageStart) (bytes : List Byte) :
    (s.polling bytes).entered.awaitsMessage := by
  obtain ⟨hterm, hcode⟩ | ⟨hcode, hdec⟩ := h
  · have hentry : referenceEntry (s.polling bytes) = restartAt 0 (s.polling bytes) :=
      (referenceEntry_of_terminal (s := s.polling bytes) hterm).trans
        (congrArg (restartAt · (s.polling bytes)) (if_neg hcode))
    refine ⟨entered_draining _, ?_, ?_⟩ <;> rw [State.entered, hentry] <;> rfl
  · have hopen : s.terminal = false := terminal_eq_false_iff.mpr ⟨by rw [hdec], hcode⟩
    have hentry := referenceEntry_of_not_terminal (s := s.polling bytes) hopen
    refine ⟨entered_draining _, ?_, ?_⟩ <;> rw [State.entered, hentry]
    · exact hdec
    · exact hcode

/-- The two bytes of a length, loaded one after the other, make it up again (R181, R182). -/
theorem withLsb_withMsb_halves (len h : Half) :
    withLsb (halfLsb len) (withMsb (halfMsb len) h) = len := by
  rw [withMsb_eq_append, withLsb_eq_append, halfMsb_append, halfMsb_append_halfLsb]

/-- The drain loop with the parameters `c` after `n` bytes of the frame `f`. -/
structure Receiving (c : Config) (f : List Byte) (n : Nat) (s : State) : Prop where
  cfg : s.cfg = c
  draining : s.draining
  dec : s.dec = { idx := n + 3, escaping := false, csum := frameSum (f.take n), complete := false }
  errorCode : s.inp.errorCode = .noError
  frameLength : s.inp.frameLength.toNat = f.length
  cells : ∀ i, i < n → s.inp.holds f i

/-- A START and a length, as they stand on the wire, lead to the first byte of the frame. -/
theorem drained_header {c : Config} {s : State} {f : List Byte} {q : List Byte} (hcfg : s.cfg = c)
    (hs : s.awaitsMessage) (hf : f.length < 65536)
    (hq : s.rxq = startByte :: (putBytes c.escapedMode (halfMsb (BitVec.ofNat 16 f.length)) ++
      (putBytes c.escapedMode (halfLsb (BitVec.ofNat 16 f.length)) ++ q))) :
    ∃ t, s.drained = t.drained ∧ t.rxq = q ∧ Receiving c f 0 t := by
  subst hcfg
  obtain ⟨⟨hcall, hflight⟩, hdec, hcode⟩ := hs
  have hidx : s.dec.idx = 0 := by rw [hdec]
  have hesc : s.dec.escaping = false := by rw [hdec]
  generalize hlen : BitVec.ofNat 16 f.length = len at hq
  generalize hr : putBytes s.cfg.escapedMode (halfMsb len) ++
    (putBytes s.cfg.escapedMode (halfLsb len) ++ q) = r at hq
  have hstart : referenceByte startByte (s.withRxq r) = (s.withRxq r).setIdx 1 := by
    rw [referenceByte_raw (passesRaw_of_idx_zero (s := s.withRxq r) _ hesc hidx),
      afterEscapes_of_lt (by rw [withRxq_dec]; omega), dispatchByte_start (s := s.withRxq r) hidx]
  have hone := drained_of_goesOn hq (hstart ▸ ⟨hcall, hflight⟩)
  rw [hstart] at hone
  have hmsb (u : State) (hu : u.dec.idx = 1) : afterEscapes (halfMsb len) u = _ :=
    (afterEscapes_of_lt (by omega)).trans (dispatchByte_lenMsb hu)
  have htwo := drained_putBytes_goesOn (s := (s.withRxq r).setIdx 1) Nat.one_pos hesc hr.symm
    (hmsb (((s.withRxq r).setIdx 1).withRxq _) rfl ▸ ⟨hcall, hflight⟩)
  rw [hmsb _ rfl] at htwo
  have hlsb (u : State) (hu : u.dec.idx = 2) : afterEscapes (halfLsb len) u = _ :=
    (afterEscapes_of_lt (by omega)).trans (dispatchByte_lenLsb hu)
  have hthree (u : State) (hu : u.dec.idx = 2) (hmode : u.cfg = s.cfg) (hdrain : u.draining)
      (hesc : u.dec.escaping = false)
      (huq : u.rxq = putBytes s.cfg.escapedMode (halfLsb len) ++ q) : u.drained = _ :=
    (drained_putBytes_goesOn (by omega) hesc (hmode ▸ huq)
      (hlsb (u.withRxq q) hu ▸ ⟨hdrain.call, hdrain.flight⟩)).trans
      (congrArg State.drained (hlsb (u.withRxq q) hu))
  refine ⟨_, hone.trans (htwo.trans (hthree _ rfl rfl ⟨hcall, hflight⟩ hesc rfl)), rfl,
    rfl, ⟨hcall, hflight⟩, ?_, hcode, ?_, nofun⟩
  · simp [hdec, frameSum]
  · show (withLsb (halfLsb len) (withMsb (halfMsb len) s.inp.frameLength)).toNat = f.length
    rw [withLsb_withMsb_halves, ← hlen, BitVec.toNat_ofNat, Nat.mod_eq_of_lt hf]

/-! ### The bytes of the frame (R178, R186) -/

theorem frameSum_take_succ {f : List Byte} {n : Nat} {b : Byte} (h : f[n]? = some b) :
    frameSum (f.take (n + 1)) = frameSum (f.take n) + b := by
  rw [List.take_add_one, h, frameSum, List.foldl_append]
  rfl

theorem receiving_frameByteStored {c : Config} {f : List Byte} {n : Nat} {s : State} {b : Byte}
    (h : Receiving c f n s) (hb : f[n]? = some b) (hmax : n + 3 ≤ c.mIn) :
    afterEscapes b s = s.frameByteStored b ∧ Receiving c f (n + 1) (s.frameByteStored b) := by
  have hcfg := h.cfg
  subst hcfg
  have hidx : s.dec.idx = n + 3 := by rw [h.dec]
  have hn : n < f.length := (List.getElem?_eq_some_iff.mp hb).1
  have hcell : s.dec.idx - 3 = n := by omega
  refine ⟨afterEscapes_frameByte b (by omega) (by omega) (by rw [h.frameLength]; omega),
    rfl, ⟨h.draining.call, h.draining.flight⟩, ?_, h.errorCode, h.frameLength, fun i hi => ?_⟩
  · show { s.dec with idx := s.dec.idx + 1, csum := s.dec.csum + b } = _
    rw [h.dec, frameSum_take_succ hb]
  · show (s.inp.stored s.cfg.mIn (s.dec.idx - 3) b).holds f i
    rw [hcell]
    refine holds_stored (by omega) hb ?_
    obtain hlt | rfl := Nat.lt_succ_iff_lt_or_eq.mp hi
    · exact .inr (h.cells i hlt)
    · exact .inl rfl

/-- Frame bytes below the ceiling are stored and summed, one after the other. -/
theorem drained_frameBytes {c : Config} {f bytes : List Byte} {n : Nat} {s : State} {q : List Byte}
    (h : Receiving c f n s) (hbytes : bytes <+: f.drop n) (hmax : n + bytes.length + 2 ≤ c.mIn)
    (hq : s.rxq = bytes.flatMap (putBytes c.escapedMode) ++ q) :
    ∃ t, s.drained = t.drained ∧ t.rxq = q ∧ Receiving c f (n + bytes.length) t := by
  induction bytes generalizing n s with
  | nil => exact ⟨s, rfl, hq, h⟩
  | cons b rest ih =>
    obtain ⟨tail, htail⟩ := hbytes
    have hb : f[n]? = some b := by
      have hhead := congrArg (·[0]?) htail
      simpa using hhead.symm
    have hrest : rest <+: f.drop (n + 1) := by
      refine ⟨tail, ?_⟩
      have hdrop := congrArg List.tail htail
      simpa [List.tail_drop] using hdrop
    rw [List.length_cons] at hmax
    rw [List.flatMap_cons, List.append_assoc] at hq
    generalize hr : rest.flatMap (putBytes c.escapedMode) ++ q = r at hq
    have hwith : Receiving c f n (s.withRxq r) :=
      ⟨h.cfg, ⟨h.draining.call, h.draining.flight⟩, h.dec, h.errorCode, h.frameLength, h.cells⟩
    obtain ⟨hafter, hnext⟩ := receiving_frameByteStored hwith hb (by omega)
    have hgo := drained_putBytes_goesOn (by rw [h.dec]; exact Nat.succ_pos _) (by rw [h.dec])
      (h.cfg ▸ hq) (hafter ▸ hnext.draining)
    rw [hafter] at hgo
    obtain ⟨t, ht, htq, hrecv⟩ := ih hnext hrest (by omega) hr.symm
    exact ⟨t, hgo.trans ht, htq, by
      rwa [List.length_cons, show n + (rest.length + 1) = n + 1 + rest.length by omega]⟩

/-! ### The end of a message (R183 to R185) -/

theorem drained_checksum {c : Config} {f : List Byte} {k : Byte} {s : State}
    (h : Receiving c f f.length s) (hmax : f.length + 3 ≤ c.mIn)
    (hq : s.rxq = putBytes c.escapedMode k ++ []) :
    s.drained.call = .idle ∧ s.drained.rxq = [] ∧ s.drained.inp.frame = some f ∧
      s.drained.dec.idx = f.length + 3 ∧
      (frameSum f + k = 0xFF → s.drained.dec.complete = true ∧
        s.drained.inp.errorCode = .noError ∧ s.drained.inp.checksum = k) ∧
      (frameSum f + k ≠ 0xFF →
        s.drained.dec.complete = false ∧ s.drained.inp.errorCode = .checksumFailure) := by
  have hcfg := h.cfg
  subst hcfg
  have hdec := h.dec
  rw [List.take_length] at hdec
  have hidx : s.dec.idx = f.length + 3 := by rw [hdec]
  have hcsum : s.dec.csum = frameSum f := by rw [hdec]
  have hck : s.dec.idx = checksumOffset s.inp.frameLength := by
    rw [hidx, checksumOffset, h.frameLength]
  have hframe : s.inp.frame = some f := frame_of_holds h.frameLength.symm h.cells
  have hafter : afterEscapes k (s.withRxq []) = dispatchByte k ((s.withRxq []).summed k) :=
    afterEscapes_of_three_le (by rw [withRxq_dec]; omega)
  have hstop := drained_putBytes_stop (by omega) (by rw [hdec]) hq
  rw [hafter] at hstop
  by_cases hsum : frameSum f + k = 0xFF
  · have hok := dispatchByte_ckOk (s := (s.withRxq []).summed k) (b := k)
      (show 3 ≤ s.dec.idx by omega) (show s.dec.idx ≤ s.cfg.mIn by omega) hck
      (show s.dec.csum + k = 0xFF by rw [hcsum, hsum])
    rw [hok] at hstop
    rw [hstop rfl]
    exact ⟨rfl, rfl, hframe, hidx, fun _ => ⟨rfl, rfl, rfl⟩, fun hne => absurd hsum hne⟩
  · have hfail := dispatchByte_ckFail (s := (s.withRxq []).summed k) (b := k)
      (show 3 ≤ s.dec.idx by omega) (show s.dec.idx ≤ s.cfg.mIn by omega) hck
      (show s.dec.csum + k ≠ 0xFF by rwa [hcsum])
    rw [hfail] at hstop
    rw [hstop rfl]
    exact ⟨rfl, rfl, hframe, hidx, fun he => absurd he hsum, fun _ => ⟨by
      show s.dec.complete = false
      rw [hdec], rfl⟩⟩

/-- The wire bytes of a message in the grouping in which the decoder takes them. -/
theorem messageWith_eq (escaped : Bool) (f : List Byte) (k : Byte) :
    messageWith escaped f k =
      startByte :: (putBytes escaped (halfMsb (BitVec.ofNat 16 f.length)) ++
        (putBytes escaped (halfLsb (BitVec.ofNat 16 f.length)) ++
          (f.flatMap (putBytes escaped) ++ putBytes escaped k))) := by
  simp only [messageWith, List.append_assoc]
  rfl

/-- A poll of a message comes to the first byte of its frame. -/
theorem poll_header {s : State} {f : List Byte} (k : Byte) (hs : s.atMessageStart)
    (hf : f.length < 65536) :
    ∃ t, referencePoll (s.polling (messageWith s.cfg.escapedMode f k)) = t.drained ∧
      t.rxq = f.flatMap (putBytes s.cfg.escapedMode) ++ putBytes s.cfg.escapedMode k ∧
      Receiving s.cfg f 0 t := by
  rw [referencePoll_eq_drained]
  exact drained_header (entered_cfg _) (entered_awaitsMessage hs _) hf
    ((entered_rxq _).trans (messageWith_eq s.cfg.escapedMode f k))

/-- A message within the ceiling is drained to the verdict on its checksum. -/
theorem poll_message {s : State} {f : List Byte} {k : Byte} (hs : s.atMessageStart)
    (hf : f.length < 65536) (hmax : f.length + 3 ≤ s.cfg.mIn) :
    let u := referencePoll (s.polling (messageWith s.cfg.escapedMode f k))
    u.call = .idle ∧ u.rxq = [] ∧ u.inp.frame = some f ∧ u.dec.idx = f.length + 3 ∧
      (frameSum f + k = 0xFF →
        u.dec.complete = true ∧ u.inp.errorCode = .noError ∧ u.inp.checksum = k) ∧
      (frameSum f + k ≠ 0xFF →
        u.dec.complete = false ∧ u.inp.errorCode = .checksumFailure) := by
  intro u
  obtain ⟨t, ht, htq, hrecv⟩ := poll_header k hs hf
  obtain ⟨w, hw, hwq, hrecv'⟩ := drained_frameBytes (bytes := f) hrecv (List.prefix_refl _)
    (by omega) htq
  rw [Nat.zero_add] at hrecv'
  have hu : u = w.drained := ht.trans hw
  rw [hu]
  exact drained_checksum hrecv' hmax (hwq.trans (List.append_nil _).symm)

/-- Settles O43: the message is drained through its header, its frame and its checksum byte. -/
theorem checksumVerdict : Obligations.ChecksumVerdict := by
  intro s f k hs hf hmax
  obtain ⟨_, n, _, hrun⟩ := poll_runs s (messageWith s.cfg.escapedMode f k)
  exact ⟨n, _, hrun, poll_message hs hf hmax⟩

theorem drained_overlen {c : Config} {f : List Byte} {n : Nat} {b : Byte} {q : List Byte}
    {s : State} (h : Receiving c f n s) (hover : c.mIn < n + 3)
    (hq : s.rxq = putBytes c.escapedMode b ++ q) :
    s.drained.call = .idle ∧ s.drained.dec.complete = false ∧
      s.drained.inp.errorCode = .maxFrameLengthExceeded ∧ s.drained.dec.idx = n + 3 ∧
      s.drained.inp.frameLength.toNat = f.length ∧
      ∀ j, j < n → s.drained.inp.peek j = f[j]? := by
  have hcfg := h.cfg
  subst hcfg
  have hidx : s.dec.idx = n + 3 := by rw [h.dec]
  have hafter : afterEscapes b (s.withRxq q) =
      decoderError .maxFrameLengthExceeded ((s.withRxq q).summed b) :=
    (afterEscapes_of_three_le (by rw [withRxq_dec]; omega)).trans
      (dispatchByte_overlen (s := (s.withRxq q).summed b) (show 3 ≤ s.dec.idx by omega)
        (show s.cfg.mIn < s.dec.idx by omega))
  have hstop := drained_putBytes_stop (by omega) (by rw [h.dec]) hq (hafter ▸ rfl)
  rw [hafter] at hstop
  rw [hstop]
  exact ⟨rfl, by show s.dec.complete = false; rw [h.dec], rfl, hidx, h.frameLength,
    fun j hj => peek_of_holds (h.cells j hj)⟩

/-- Settles O44: the frame bytes up to the ceiling are stored, and the byte after them ends the call. -/
theorem overlongFrameRejected : Obligations.OverlongFrameRejected := by
  intro s f k hs hf hmin hover
  obtain ⟨_, n, _, hrun⟩ := poll_runs s (messageWith s.cfg.escapedMode f k)
  refine ⟨n, _, hrun, ?_⟩
  obtain ⟨t, ht, htq, hrecv⟩ := poll_header k hs hf
  have hlen : (f.take (s.cfg.mIn - 2)).length = s.cfg.mIn - 2 := List.length_take_of_le (by omega)
  obtain ⟨b, q, hbq⟩ : ∃ b q,
      (f.drop (s.cfg.mIn - 2)).flatMap (putBytes s.cfg.escapedMode) ++ putBytes s.cfg.escapedMode k =
        putBytes s.cfg.escapedMode b ++ q := by
    cases f.drop (s.cfg.mIn - 2) with
    | nil => exact ⟨k, [], (List.append_nil _).symm⟩
    | cons b rest => exact ⟨b, _, List.append_assoc ..⟩
  have hsplit : f.flatMap (putBytes s.cfg.escapedMode) ++ putBytes s.cfg.escapedMode k =
      (f.take (s.cfg.mIn - 2)).flatMap (putBytes s.cfg.escapedMode) ++
        (putBytes s.cfg.escapedMode b ++ q) := by
    rw [← hbq, ← List.append_assoc, ← List.flatMap_append, List.take_append_drop]
  obtain ⟨w, hw, hwq, hrecv'⟩ := drained_frameBytes (bytes := f.take (s.cfg.mIn - 2)) hrecv
    (List.take_prefix _ _) (by rw [hlen]; omega) (htq.trans hsplit)
  rw [Nat.zero_add, hlen] at hrecv'
  rw [ht, hw, show s.cfg.mIn + 1 = s.cfg.mIn - 2 + 3 by omega]
  exact drained_overlen hrecv' (by omega) hwq

end Sys2Proof.Machine

/-! O47, O48, O49, O50, O51 and O52: the encoder, its flush and the round trip (R118, R210 to R222).

`unhindered` schedules give the block every turn; on them the encoder's rows run one after the other, which
is the induction over the frame. The flush is an induction over the schedule. -/

namespace Sys2Proof.Machine

open Host (Outcome)

/-! ### The rows of the data, the checksum and the flush (R214 to R216) -/

section
variable {s : State} {t : EncTemps}

theorem encoderRow_data (hstage : t.stage = .data) (hi : t.i < s.out.frameLength.toNat) :
    encoderRow t s = .encData := by
  simp only [encoderRow, hstage, hi, if_true]

theorem encoderRow_csum (hstage : t.stage = .data) (hi : s.out.frameLength.toNat ≤ t.i) :
    encoderRow t s = .encCsum := by
  simp only [encoderRow, hstage, Nat.not_lt.mpr hi, if_false]

theorem encoderRow_flush (hstage : t.stage = .flush) : encoderRow t s = .encFlush := by
  simp only [encoderRow, hstage]

/-- A frame byte is read once: the value of its cell, or some byte where it has none. -/
theorem pktGetOp_outgoing_of_lt {i : Nat} (h : i < s.out.frameLength.toNat) :
    ∃ v n, (∀ b, s.out.peek i = some b → v = b ∧ n = s.draws) ∧
      pktGetOp .outgoing i s = (v, { s with draws := n }) := by
  obtain ⟨_, hget⟩ | ⟨hle, _⟩ := pktGetOp_cases .outgoing i s
  · obtain ⟨v, hv, hbuf⟩ | ⟨hnone, _, _, hbuf⟩ := bufGetOp_cases .outgoing i s
    · refine ⟨v, s.draws, fun b hb => ⟨?_, rfl⟩, hget.trans hbuf⟩
      exact Option.some.inj (hv.symm.trans hb)
    · exact ⟨Config.freeByte s.draws, s.draws + 1,
        fun b hb => absurd (hnone.symm.trans hb) nofun, hget.trans hbuf⟩
  · exact absurd h (Nat.not_lt.mpr hle)

theorem exec_encData (hcall : s.call = .serialize t) (hstage : t.stage = .data)
    (hi : t.i < s.out.frameLength.toNat) :
    exec .encData s = .next ((encPut (pktGetOp .outgoing t.i s).1 (pktGetOp .outgoing t.i s).2).setEnc
      { t with sum := t.sum + (pktGetOp .outgoing t.i s).1, i := t.i + 1 }) := by
  show Outcome.next (encData s) = _
  simp only [encData, hcall, hstage, hi, and_self, if_true]

theorem exec_encCsum (hcall : s.call = .serialize t) (hstage : t.stage = .data)
    (hi : s.out.frameLength.toNat ≤ t.i) :
    exec .encCsum s = .next ((encPut (checksumOf t.sum) s).setEnc { t with stage := .flush }) := by
  show Outcome.next (encCsum s) = _
  simp only [encCsum, hcall, hstage, hi, and_self, if_true]

theorem exec_encFlush_nil (hcall : s.call = .serialize t) (hstage : t.stage = .flush)
    (hq : s.txq = []) : exec .encFlush s = .next { s with call := .idle } := by
  show Outcome.next (encFlush s) = _
  simp only [encFlush, hcall, hstage, hq, and_self, if_true]

theorem exec_encFlush_held (hcall : s.call = .serialize t) (hq : s.txq ≠ []) :
    exec .encFlush s = .next s := by
  show Outcome.next (encFlush s) = _
  simp only [encFlush, hcall, hq, and_false, if_false]

end

/-- The encoder's state after it has put a byte, with its working state and the count of free values. -/
def State.emitted (s : State) (bytes : List Byte) (t : EncTemps) (n : Nat) : State :=
  { s with txq := s.txq ++ bytes, call := .serialize t, draws := n }

/-- What is emitted in two steps is emitted in order; the schedule between them does not matter. -/
theorem emitted_emitted (s : State) (a b : List Byte) (t u : EncTemps) (m n : Nat)
    (ts us : List Turn) :
    ((((s.emitted a t m).withTurns ts).emitted b u n).withTurns us) =
      (s.emitted (a ++ b) u n).withTurns us := by
  simp only [State.emitted, State.withTurns, List.append_assoc]

theorem exec_encData_emitted {s : State} {t : EncTemps} (hcall : s.call = .serialize t)
    (hstage : t.stage = .data) (hi : t.i < s.out.frameLength.toNat) :
    ∃ v n, (∀ b, s.out.peek t.i = some b → v = b ∧ n = s.draws) ∧
      exec .encData s = .next (s.emitted (putBytes s.cfg.escapedMode v)
        { stage := .data, sum := t.sum + v, i := t.i + 1 } n) := by
  obtain ⟨v, n, hv, hget⟩ := pktGetOp_outgoing_of_lt hi
  refine ⟨v, n, hv, ?_⟩
  rw [exec_encData hcall hstage hi, hget, encPut_eq, hstage]
  rfl

/-- Settles O47: the byte read goes to the wire and to the sum. -/
theorem dataEmissionRow : Obligations.DataEmissionRow :=
  fun _ _ hcall hstage hi =>
    ⟨encoderRow_data hstage hi, exec_encData_emitted hcall hstage hi⟩

/-- Settles O48: the checksum by the bytes of `put`, the flush by the two forms of `TXQ`. -/
theorem checksumEmissionAndFlushRows : Obligations.ChecksumEmissionAndFlushRows := by
  intro s t hcall
  refine ⟨fun hstage hi => ⟨encoderRow_csum hstage hi, ?_⟩, encoderRow_flush,
    exec_encFlush_nil hcall, fun _ => exec_encFlush_held hcall⟩
  rw [exec_encCsum hcall hstage hi, encPut_eq]
  rfl

/-! ### O51: the bytes of a message on the wire (R104, R120, R212, R217) -/

/-- No byte that `put` writes in escaped mode is a START, an XON or an XOFF. -/
theorem mem_putBytes_escaped {b c : Byte} (h : c ∈ putBytes true b) :
    c ≠ 0x7E ∧ c ≠ 0x11 ∧ c ≠ 0x13 := by
  cases hres : isReserved b with
  | false =>
    rw [putBytes_of_unreserved (by rw [hres]; rfl), List.mem_singleton] at h
    subst h
    rw [← Bool.not_eq_true, isReserved_iff] at hres
    simp only [not_or] at hres
    exact ⟨hres.1, hres.2.2⟩
  | true =>
    rw [putBytes_of_reserved hres] at h
    obtain rfl | rfl | rfl | rfl := isReserved_iff.mp hres <;>
      obtain rfl | rfl : c = _ ∨ c = _ := by simpa using h
    all_goals decide

theorem putBytes_length_bounds (m : Bool) (b : Byte) :
    1 ≤ (putBytes m b).length ∧ (putBytes m b).length ≤ 2 := by
  unfold putBytes
  split <;> simp

theorem putBytes_unescaped (b : Byte) : putBytes false b = [b] := rfl

theorem flatMap_putBytes_unescaped (f : List Byte) : f.flatMap (putBytes false) = f :=
  List.flatMap_singleton' f

theorem flatMap_putBytes_length_bounds (m : Bool) (f : List Byte) :
    f.length ≤ (f.flatMap (putBytes m)).length ∧
      (f.flatMap (putBytes m)).length ≤ 2 * f.length := by
  induction f with
  | nil => exact ⟨le_rfl, le_rfl⟩
  | cons b rest ih =>
    have hb := putBytes_length_bounds m b
    simp only [List.flatMap_cons, List.length_append, List.length_cons]
    omega

theorem messageBytes_eq (m : Bool) (f : List Byte) :
    messageBytes m f = startByte :: (putBytes m (halfMsb (BitVec.ofNat 16 f.length)) ++
      (putBytes m (halfLsb (BitVec.ofNat 16 f.length)) ++
        (f.flatMap (putBytes m) ++ putBytes m (checksumOf (frameSum f))))) :=
  messageWith_eq m f _

theorem messageBytes_length_bounds (m : Bool) (f : List Byte) :
    f.length + 4 ≤ (messageBytes m f).length ∧ (messageBytes m f).length ≤ 2 * f.length + 7 := by
  have hmsb := putBytes_length_bounds m (halfMsb (BitVec.ofNat 16 f.length))
  have hlsb := putBytes_length_bounds m (halfLsb (BitVec.ofNat 16 f.length))
  have hck := putBytes_length_bounds m (checksumOf (frameSum f))
  have hbody := flatMap_putBytes_length_bounds m f
  simp only [messageBytes_eq, List.length_cons, List.length_append]
  omega

/-- Settles O51, byte by byte of what `put` writes. -/
theorem messageBytesOnTheWire : Obligations.MessageBytesOnTheWire := by
  intro f
  obtain ⟨hlow, hhigh⟩ := messageBytes_length_bounds true f
  refine ⟨⟨_, messageBytes_eq true f, fun b hb => ?_⟩, hlow, hhigh, ?_⟩
  · simp only [List.mem_append, List.mem_flatMap] at hb
    obtain h | h | ⟨_, _, h⟩ | h := hb <;> exact mem_putBytes_escaped h
  · simp only [messageBytes_eq, putBytes_unescaped, List.length_cons, List.length_append,
      flatMap_putBytes_unescaped, List.length_nil]
    omega

/-! ### Runs (R10, R11) -/

theorem runsTo_trans {m n : Nat} {s t u : State} (h : runsTo m s t) (h' : runsTo n t u) :
    runsTo (m + n) s u := by
  induction m generalizing s with
  | zero => rw [show s = t from h, Nat.zero_add]; exact h'
  | succ m ih =>
    obtain ⟨v, hstep, hrun⟩ := h
    rw [Nat.succ_add]
    exact ⟨v, hstep, ih hrun⟩

theorem runsTo_step {n : Nat} {s t u : State} (h : step s = .next t) (h' : runsTo n t u) :
    runsTo (n + 1) s u :=
  ⟨t, h, h'⟩

/-- The schedules `g n`, with `n` moves of the block still to come, give the block every turn: the empty
schedule does, and one of `unit` turns. -/
def unhindered (g : Nat → List Turn) : Prop :=
  ∀ n, (g (n + 1) = [] ∧ g n = []) ∨ g (n + 1) = .unit :: g n

theorem unhindered_nil : unhindered fun _ => [] := fun _ => .inl ⟨rfl, rfl⟩

theorem unhindered_units (ts : List Turn) :
    unhindered fun n => List.replicate n .unit ++ ts := fun _ => .inr rfl

section
variable {g : Nat → List Turn} (hg : unhindered g) {s : State} {n : Nat}
include hg

theorem step_unhindered (hturns : s.turns = g (n + 1)) :
    step s = blockStep false (s.withTurns (g n)) := by
  obtain ⟨hnow, hthen⟩ | hunit := hg n
  · rw [step_turns_nil (hturns.trans hnow), hthen, ← hturns.trans hnow]
    rfl
  · exact step_unit_turn (hturns.trans hunit)

theorem step_encoder {t : EncTemps} (hturns : s.turns = g (n + 1)) (hcall : s.call = .serialize t) :
    step s = exec (encoderRow t s) (s.withTurns (g n)) := by
  rw [step_unhindered hg hturns, blockStep_serialize (s := s.withTurns (g n)) hcall]
  rfl

theorem step_hostOp {i : Instr} {rest : List Instr} (hturns : s.turns = g (n + 1))
    (hcall : s.call = .idle) (hq : s.hostq = i :: rest) (hi : i.isHostOp = true) :
    step s = exec i { s.withTurns (g n) with hostq := rest } := by
  rw [step_unhindered hg hturns]
  exact blockStep_idle_hostOp (s := s.withTurns (g n)) hcall hq hi

/-! ### O49: the rows of the encoder, one after the other -/

theorem step_encStart {t : EncTemps} (hturns : s.turns = g (n + 1))
    (hcall : s.call = .serialize t) (hstage : t.stage = .start) :
    step s = .next ((s.emitted [startByte] { t with stage := .lenMsb } s.draws).withTurns (g n)) := by
  rw [step_encoder hg hturns hcall, encoderRow_start hstage]
  exact exec_encStart (s := s.withTurns (g n)) hcall hstage

theorem step_encLenMsb {t : EncTemps} (hturns : s.turns = g (n + 1))
    (hcall : s.call = .serialize t) (hstage : t.stage = .lenMsb) :
    step s = .next ((s.emitted (putBytes s.cfg.escapedMode (halfMsb s.out.frameLength))
      { t with stage := .lenLsb } s.draws).withTurns (g n)) := by
  rw [step_encoder hg hturns hcall, encoderRow_lenMsb hstage]
  exact (exec_encLenMsb (s := s.withTurns (g n)) hcall hstage).trans (by rw [encPut_eq]; rfl)

theorem step_encLenLsb {t : EncTemps} (hturns : s.turns = g (n + 1))
    (hcall : s.call = .serialize t) (hstage : t.stage = .lenLsb) :
    step s = .next ((s.emitted (putBytes s.cfg.escapedMode (halfLsb s.out.frameLength))
      { stage := .data, sum := 0, i := 0 } s.draws).withTurns (g n)) := by
  rw [step_encoder hg hturns hcall, encoderRow_lenLsb hstage]
  exact (exec_encLenLsb (s := s.withTurns (g n)) hcall hstage).trans (by rw [encPut_eq]; rfl)

theorem step_encData {t : EncTemps} (hturns : s.turns = g (n + 1))
    (hcall : s.call = .serialize t) (hstage : t.stage = .data)
    (hi : t.i < s.out.frameLength.toNat) :
    ∃ v d, (∀ b, s.out.peek t.i = some b → v = b ∧ d = s.draws) ∧
      step s = .next ((s.emitted (putBytes s.cfg.escapedMode v)
        { stage := .data, sum := t.sum + v, i := t.i + 1 } d).withTurns (g n)) := by
  obtain ⟨v, d, hv, hexec⟩ := exec_encData_emitted (s := s.withTurns (g n)) hcall hstage hi
  refine ⟨v, d, hv, ?_⟩
  rw [step_encoder hg hturns hcall, encoderRow_data hstage hi]
  exact hexec

theorem step_encCsum {t : EncTemps} (hturns : s.turns = g (n + 1))
    (hcall : s.call = .serialize t) (hstage : t.stage = .data)
    (hi : s.out.frameLength.toNat ≤ t.i) :
    step s = .next ((s.emitted (putBytes s.cfg.escapedMode (checksumOf t.sum))
      { t with stage := .flush } s.draws).withTurns (g n)) := by
  rw [step_encoder hg hturns hcall, encoderRow_csum hstage hi]
  exact (exec_encCsum (s := s.withTurns (g n)) hcall hstage hi).trans (by rw [encPut_eq]; rfl)

omit hg in
/-- Two runs that emit, one after the other. -/
theorem runsTo_emitted {a b : List Byte} {t u : EncTemps} {m d e : Nat} {ts us : List Turn}
    (h : runsTo m s ((s.emitted a t d).withTurns ts))
    (h' : runsTo n ((s.emitted a t d).withTurns ts)
      ((((s.emitted a t d).withTurns ts).emitted b u e).withTurns us)) :
    runsTo (m + n) s ((s.emitted (a ++ b) u e).withTurns us) := by
  rw [← emitted_emitted s a b t u d e ts us]
  exact runsTo_trans h h'

/-- The loop of `ENC.DATA`: the bytes read are emitted and summed. -/
theorem runsTo_encData {m k : Nat} {t : EncTemps} (hturns : s.turns = g (k + m))
    (hcall : s.call = .serialize t) (hstage : t.stage = .data)
    (hlen : t.i + m = s.out.frameLength.toNat) :
    ∃ (f : List Byte) (d : Nat), f.length = m ∧
      (∀ j, j < m → s.out.peek (t.i + j) = none ∨ f[j]? = s.out.peek (t.i + j)) ∧
      ((∀ j, j < m → s.out.peek (t.i + j) ≠ none) → d = s.draws) ∧
      runsTo m s ((s.emitted (f.flatMap (putBytes s.cfg.escapedMode))
        { stage := .data, sum := f.foldl (· + ·) t.sum, i := t.i + m } d).withTurns (g k)) := by
  induction m generalizing s t with
  | zero =>
    refine ⟨[], s.draws, rfl, nofun, fun _ => rfl, ?_⟩
    obtain ⟨stage, sum, i⟩ := t
    obtain rfl : stage = .data := hstage
    show s = { s with txq := s.txq ++ [], call := _, draws := s.draws, turns := g k }
    rw [List.append_nil, show g k = s.turns from hturns.symm]
    exact congrArg (fun c => { s with call := c }) hcall
  | succ m ih =>
    obtain ⟨v, d, hv, hstep⟩ := step_encData hg (n := k + m) hturns hcall hstage (by omega)
    obtain ⟨f, e, hf, hcells, hdraws, hrun⟩ := ih
      (s := (s.emitted (putBytes s.cfg.escapedMode v)
        { stage := .data, sum := t.sum + v, i := t.i + 1 } d).withTurns (g (k + m)))
      rfl rfl rfl (show t.i + 1 + m = s.out.frameLength.toNat by omega)
    have hshift (j : Nat) : t.i + 1 + j = t.i + (j + 1) := by omega
    simp only [hshift] at hcells hdraws
    refine ⟨v :: f, e, by rw [List.length_cons, hf], fun j hj => ?_, fun hall => ?_, ?_⟩
    · cases j with
      | zero =>
        cases hpeek : s.out.peek t.i with
        | none => exact .inl rfl
        | some b => exact .inr (congrArg some (hv b hpeek).1)
      | succ j => exact hcells j (Nat.lt_of_succ_lt_succ hj)
    · obtain ⟨b, hb⟩ := Option.ne_none_iff_exists'.mp (hall 0 (Nat.succ_pos m))
      rw [hdraws fun j hj => hall (j + 1) (Nat.succ_lt_succ hj)]
      exact (hv b hb).2
    · rw [List.flatMap_cons, List.foldl_cons, ← hshift, Nat.add_comm m 1]
      exact runsTo_emitted (m := 1) ⟨_, hstep, rfl⟩ hrun

/-- The five rows of a message before its flush (R210). -/
theorem encoder_runs (k : Nat) (hturns : s.turns = g (k + (s.out.frameLength.toNat + 4)))
    (hcall : s.call = .serialize { stage := .start, sum := 0, i := 0 }) :
    ∃ (f : List Byte) (d : Nat), f.length = s.out.frameLength.toNat ∧
      (∀ i, i < f.length → s.out.peek i = none ∨ f[i]? = s.out.peek i) ∧
      ((∀ i, i < f.length → s.out.peek i ≠ none) → d = s.draws) ∧
      runsTo (f.length + 4) s ((s.emitted (messageBytes s.cfg.escapedMode f)
        { stage := .flush, sum := frameSum f, i := f.length } d).withTurns (g k)) := by
  generalize hn : s.out.frameLength.toNat = n at hturns
  have hstart : runsTo 1 s ((s.emitted [startByte] { stage := .lenMsb, sum := 0, i := 0 }
      s.draws).withTurns (g (k + (n + 3)))) :=
    ⟨_, step_encStart hg hturns hcall rfl, rfl⟩
  have hheader : runsTo 3 s ((s.emitted (([startByte] ++
        putBytes s.cfg.escapedMode (halfMsb s.out.frameLength)) ++
        putBytes s.cfg.escapedMode (halfLsb s.out.frameLength))
      { stage := .data, sum := 0, i := 0 } s.draws).withTurns (g (k + (n + 1)))) :=
    runsTo_emitted (m := 2) (runsTo_emitted hstart (n := 1)
      ⟨_, step_encLenMsb hg (n := k + (n + 2)) rfl rfl rfl, rfl⟩) (n := 1)
      ⟨_, step_encLenLsb hg (n := k + (n + 1)) rfl rfl rfl, rfl⟩
  obtain ⟨f, d, hf, hcells, hdraws, hrun⟩ := runsTo_encData hg (k := k + 1) (m := n)
    (s := (s.emitted _ { stage := .data, sum := 0, i := 0 } s.draws).withTurns (g (k + (n + 1))))
    (congrArg g (by omega)) rfl rfl ((Nat.zero_add n).trans hn.symm)
  have hdata := runsTo_emitted hheader hrun
  have hcsum := runsTo_emitted hdata (n := 1) ⟨_, step_encCsum hg (n := k) rfl rfl rfl
    (show s.out.frameLength.toNat ≤ 0 + n by omega), rfl⟩
  simp only [Nat.zero_add] at hcells hdraws
  subst hf
  have hlen : BitVec.ofNat 16 f.length = s.out.frameLength := by
    rw [← hn, BitVec.ofNat_toNat, BitVec.setWidth_eq]
  refine ⟨f, d, rfl, hcells, hdraws, ?_⟩
  rw [messageBytes_eq, hlen, show f.length + 4 = 3 + f.length + 1 by omega]
  simp only [List.append_assoc, List.singleton_append, Nat.zero_add] at hcsum
  exact hcsum

end

/-- Settles O49, on the empty schedule. -/
theorem encoderWritesTheMessage : Obligations.EncoderWritesTheMessage := by
  intro s hturns hcall
  obtain ⟨f, d, hf, hcells, hdraws, hrun⟩ := encoder_runs unhindered_nil 0 hturns hcall
  refine ⟨f, d, hf, hcells, fun hframe => hdraws fun i hi => ?_, ?_⟩
  · rw [((frame_eq_some_iff _ _).mp hframe).2 i hi]
    exact Option.some_ne_none _
  · rw [State.withTurns, ← hturns] at hrun
    exact hrun

/-! ### O50: the flush under `FLUSH_PROGRESS` (R77, R216, D19) -/

/-- What a flush that has returned leaves: `TXQ` sent in order, and all but the transport's queues and the
schedule as it was. -/
structure Flushed (s u : State) : Prop where
  call : u.call = .idle
  txq : u.txq = []
  sent : u.sent = s.sent ++ s.txq
  out : u.out = s.out
  inp : u.inp = s.inp
  dec : u.dec = s.dec
  hostq : u.hostq = s.hostq

/-- At the flush the block ends the call where `TXQ` is empty, and holds where it is not. -/
theorem blockStep_flush {fine : Bool} {s : State} {t : EncTemps} (hcall : s.call = .serialize t)
    (hstage : t.stage = .flush) :
    (s.txq = [] → blockStep fine s = .next { s with call := .idle }) ∧
      (s.txq ≠ [] → blockStep fine s = .next s) := by
  rw [blockStep_serialize hcall, encoderRow_flush hstage]
  exact ⟨exec_encFlush_nil hcall hstage, exec_encFlush_held hcall⟩

theorem flushed_of_nil {s : State} (hq : s.txq = []) : Flushed s { s with call := .idle } :=
  ⟨rfl, hq, by rw [hq, List.append_nil], rfl, rfl, rfl, rfl⟩

/-- A step of the transport or of the held flush on the way. -/
theorem flushed_of_step {s t u : State} (h : Flushed t u) (hsent : t.sent ++ t.txq = s.sent ++ s.txq)
    (hout : t.out = s.out) (hinp : t.inp = s.inp) (hdec : t.dec = s.dec) (hhost : t.hostq = s.hostq) :
    Flushed s u :=
  ⟨h.call, h.txq, h.sent.trans hsent, h.out.trans hout, h.inp.trans hinp, h.dec.trans hdec,
    h.hostq.trans hhost⟩

theorem flush_runs (ts : List Turn) {s : State} {t : EncTemps} (hturns : s.turns = ts)
    (hcall : s.call = .serialize t) (hstage : t.stage = .flush)
    (hsend : s.txq.length ≤ ts.count .send) : ∃ n u, runsTo n s u ∧ Flushed s u := by
  induction ts generalizing s with
  | nil =>
    have hq : s.txq = [] := List.length_eq_zero_iff.mp (Nat.le_zero.mp hsend)
    exact ⟨1, _, ⟨_, (step_turns_nil hturns).trans ((blockStep_flush hcall hstage).1 hq), rfl⟩,
      flushed_of_nil hq⟩
  | cons turn rest ih =>
    have hblock {fine : Bool} (hstep : step s = blockStep fine (s.withTurns rest))
        (hsend : s.txq.length ≤ rest.count .send) : ∃ n u, runsTo n s u ∧ Flushed s u := by
      obtain ⟨hnil, hheld⟩ := blockStep_flush (fine := fine) (s := s.withTurns rest) hcall hstage
      by_cases hq : s.txq = []
      · exact ⟨1, _, ⟨_, hstep.trans (hnil hq), rfl⟩,
          flushed_of_step (flushed_of_nil (s := s.withTurns rest) hq) rfl rfl rfl rfl rfl⟩
      · obtain ⟨n, u, hrun, hu⟩ := ih (s := s.withTurns rest) rfl hcall hsend
        exact ⟨n + 1, u, runsTo_step (hstep.trans (hheld hq)) hrun,
          flushed_of_step hu rfl rfl rfl rfl rfl⟩
    cases turn with
    | unit => exact hblock (step_unit_turn hturns) (by simpa using hsend)
    | row => exact hblock (step_row_turn hturns) (by simpa using hsend)
    | arrive b =>
      rw [List.count_cons_of_ne (show Turn.arrive b ≠ .send from nofun)] at hsend
      obtain ⟨n, u, hrun, hu⟩ := ih (s := arriveByte b (s.withTurns rest)) rfl hcall hsend
      exact ⟨n + 1, u, runsTo_step (step_arrive_turn hturns) hrun,
        flushed_of_step hu rfl rfl rfl rfl rfl⟩
    | send =>
      have hstep : step s = .next (sendByte (s.withTurns rest)) := step_send_turn hturns
      cases hq : s.txq with
      | nil =>
        rw [sendByte_nil (s := s.withTurns rest) hq] at hstep
        obtain ⟨n, u, hrun, hu⟩ := ih (s := s.withTurns rest) rfl hcall
          (by rw [show (s.withTurns rest).txq = [] from hq]; exact Nat.zero_le _)
        exact ⟨n + 1, u, runsTo_step hstep hrun, flushed_of_step hu rfl rfl rfl rfl rfl⟩
      | cons b q =>
        rw [sendByte_cons (s := s.withTurns rest) hq] at hstep
        rw [hq, List.length_cons, List.count_cons_self] at hsend
        obtain ⟨n, u, hrun, hu⟩ := ih (s := { s.withTurns rest with txq := q, sent := s.sent ++ [b] })
          rfl hcall (Nat.le_of_succ_le_succ hsend)
        refine ⟨n + 1, u, runsTo_step hstep hrun, flushed_of_step hu ?_ rfl rfl rfl rfl⟩
        rw [hq]
        exact List.append_assoc s.sent [b] q

/-- Settles O50, by induction over the schedule. -/
theorem flushReturnsUnderProgress : Obligations.FlushReturnsUnderProgress := by
  intro s t hcall hstage
  refine ⟨fun hturns hq => (step_turns_nil hturns).trans ((blockStep_flush hcall hstage).2 hq),
    fun hprogress => ?_⟩
  obtain ⟨n, u, hrun, hcall', htxq, hsent, hout, hinp, hdec, _⟩ :=
    flush_runs s.turns rfl hcall hstage hprogress
  exact ⟨n, u, hrun, hcall', htxq, hsent, hout, hinp, hdec⟩

/-! ### O52: the round trip (R118, R220) -/

/-- `PKT.SETN` of a frame into an empty packet makes it the packet's frame. -/
theorem frame_of_wroteBytes {p : PacketId} {f : List Byte} {s t : State}
    (hf : f.length < 65536) (hempty : (s.pkt p).frameLength = 0) (h : WroteBytes p 0 f s t) :
    (t.pkt p).frame = some f := by
  have hlen := h.frameLength (by omega)
  rw [hempty, Nat.zero_add] at hlen
  refine frame_of_holds (hlen ▸ ?_) fun i hi => ?_
  · split
    · assumption
    · simp
  · have hcap := h.within i hi
    have hread := h.written i hi
    rw [Nat.zero_add] at hcap hread
    exact ⟨hcap, hread⟩

/-- The state after construction with parameters `c`, with a host's queue and a schedule. -/
def State.constructed (c : Config) (ops : List Instr) (ts : List Turn) : State :=
  { State.construct c with hostq := ops, turns := ts }

/-- The first two operations of `encode(f)` leave the frame in `OUT`. -/
theorem setn_constructed (c : Config) {f : List Byte} (ops : List Instr) (ts : List Turn)
    (hout : f.length ≤ c.mOut) (hf : f.length < 65536) :
    ∃ k d, k.frame = some f ∧
      exec (.pktSetn .outgoing 0 f f.length) (State.constructed c ops ts) =
        .next { State.constructed c ops ts with out := k, draws := d } := by
  have hwithin : 0 + f.length ≤ (State.constructed c ops ts).maxLen .outgoing := by
    rw [Nat.zero_add]
    exact hout
  have hwrote := pktSetEach_wroteBytes (p := .outgoing) f hwithin
  refine ⟨_, (pktSetEach .outgoing 0 f (State.constructed c ops ts)).draws,
    frame_of_wroteBytes hf rfl hwrote, ?_⟩
  rw [exec_pktSetn_within hwithin le_rfl, List.take_length]
  exact congrArg (fun t => Outcome.next (answer .none t)) (pktSetEach_packetOnly ..)

/-- The operations of `encode(f)` lead to the flush, with the message in `TXQ`. -/
theorem encode_runs {g : Nat → List Turn} (hg : unhindered g) (k : Nat) (c : Config) {f : List Byte}
    (hout : f.length ≤ c.mOut) (hf : f.length < 65536) :
    ∃ (t : State) (e : EncTemps),
      runsTo (f.length + 7)
        (State.constructed c (encodeOperations f) (g (k + (f.length + 7)))) t ∧
      t.call = .serialize e ∧ e.stage = .flush ∧ t.txq = messageBytes c.escapedMode f ∧
      t.sent = [] ∧ t.hostq = [] ∧ t.turns = g k ∧ t.out.frame = some f := by
  have hreset : step (State.constructed c (encodeOperations f) (g (k + (f.length + 7)))) =
      .next (State.constructed c [.pktSetn .outgoing 0 f f.length, .encSerialize]
        (g (k + (f.length + 6)))) :=
    (step_hostOp hg (s := State.constructed c (encodeOperations f) _) (n := k + (f.length + 6))
      rfl rfl rfl rfl).trans rfl
  obtain ⟨p, d, hframe, hexec⟩ :=
    setn_constructed c [.encSerialize] (g (k + (f.length + 5))) hout hf
  have hsetn : step (State.constructed c [.pktSetn .outgoing 0 f f.length, .encSerialize]
      (g (k + (f.length + 6)))) = _ :=
    (step_hostOp hg (n := k + (f.length + 5)) rfl rfl rfl rfl).trans hexec
  have hserialize : step { State.constructed c [.encSerialize] (g (k + (f.length + 5))) with
      out := p, draws := d } = .next { State.constructed c [] (g (k + (f.length + 4))) with
        out := p, draws := d, call := .serialize { stage := .start, sum := 0, i := 0 } } :=
    (step_hostOp hg (s := { State.constructed c [.encSerialize] (g (k + (f.length + 5))) with
      out := p, draws := d }) (n := k + (f.length + 4)) rfl rfl rfl rfl).trans rfl
  obtain ⟨hlen, hcells⟩ := (frame_eq_some_iff ..).mp hframe
  obtain ⟨f', e, hf', hcells', _, hrun⟩ := encoder_runs hg k
    (s := { State.constructed c [] (g (k + (f.length + 4))) with
      out := p, draws := d, call := .serialize { stage := .start, sum := 0, i := 0 } })
    (by rw [hlen]; rfl) rfl
  have hlen' : f'.length = f.length := hf'.trans hlen.symm
  have hsame : f' = f := by
    refine List.ext_getElem hlen' fun i hi hi' => ?_
    obtain hnone | hsome := hcells' i hi
    · exact absurd ((hcells i hi').symm.trans hnone) nofun
    · rw [List.getElem?_eq_getElem hi] at hsome
      exact Option.some.inj (hsome.trans (hcells i hi'))
  subst hsame
  exact ⟨_, _, runsTo_step hreset (runsTo_step hsetn (runsTo_step hserialize hrun)), rfl, rfl, rfl,
    rfl, rfl, rfl, hframe⟩

theorem add_checksumOf (sum : Byte) : sum + checksumOf sum = 0xFF := add_sub_cancel sum 0xFF

/-- A poll of a message within the ceiling, from construction, completes with its frame. -/
theorem poll_constructed {c : Config} {f : List Byte} (hf : f.length < 65536)
    (hin : f.length + 3 ≤ c.mIn) :
    let u := referencePoll ((State.construct c).polling (messageBytes c.escapedMode f))
    u.call = .idle ∧ u.dec.complete = true ∧ u.inp.errorCode = .noError ∧ u.inp.frame = some f := by
  intro u
  obtain ⟨hcall, _, hframe, _, hok, _⟩ :=
    poll_message (s := State.construct c) (k := checksumOf (frameSum f)) (.inr ⟨rfl, rfl⟩) hf hin
  obtain ⟨hcomplete, hcode, _⟩ := hok (add_checksumOf _)
  exact ⟨hcall, hcomplete, hcode, hframe⟩

theorem referenceDecode_messageBytes {c : Config} {f : List Byte} (hf : f.length < 65536)
    (hin : f.length + 3 ≤ c.mIn) :
    referenceDecode c (messageBytes c.escapedMode f) = some f := by
  obtain ⟨_, hcomplete, _, hframe⟩ := poll_constructed hf hin
  have hsame : referencePoll { State.construct c with rxq := messageBytes c.escapedMode f } =
      referencePoll ((State.construct c).polling (messageBytes c.escapedMode f)) := by
    rw [referencePoll_eq_drained, referencePoll_eq_drained, State.entered, State.entered,
      referenceEntry_of_not_terminal rfl, referenceEntry_of_not_terminal rfl]
    rfl
  show (if (referencePoll _).dec.complete = true then (referencePoll _).inp.frame else none) = _
  rw [hsame, if_pos hcomplete, hframe]

/-- Settles O52: the operations of `encode(f)` to the flush, the flush, and the poll of what was sent. -/
theorem roundTrip : Obligations.RoundTrip := by
  intro c f hout hin hf encoding message
  refine ⟨referenceDecode_messageBytes hf hin, ?_, fun ts hsend => ?_⟩
  · obtain ⟨t, _, hrun, _, _, htxq, _, _, _, hframe⟩ := encode_runs unhindered_nil 0 c hout hf
    exact ⟨_, t, hrun, htxq, hframe⟩
  · obtain ⟨t, e, hrun, hcall, hstage, htxq, hsent, hhost, hturns, hframe⟩ :=
      encode_runs (unhindered_units ts) 0 c hout hf
    obtain ⟨n, u, hflush, hu⟩ := flush_runs ts hturns hcall hstage (htxq ▸ hsend)
    have husent : u.sent = message := by rw [hu.sent, hsent, htxq]; rfl
    obtain ⟨_, m, _, hpoll⟩ := poll_runs (State.construct c) message
    have hstart : step { State.construct c with hostq := [.decPoll], rxq := u.sent } =
        .next ((State.construct c).polling message) := by
      rw [husent]
      rfl
    rw [Nat.zero_add] at hrun
    exact ⟨_, m + 1, u, _, runsTo_trans hrun hflush, hu.call, hu.hostq.trans hhost, hu.txq, husent,
      hu.out ▸ hframe, runsTo_step hstart hpoll, poll_constructed hf hin⟩

end Sys2Proof.Machine

/-! O53, O54 and O55: the prepare operations (R241 to R243, R251, R252, R254, R259).

All three lay out a frame `code id middle payload`, and write its payload, its fields and its frame id by
`PKT.SET`s. `Builds f w` says that the cells that `w` names hold the frame `f`; each write of a byte of `f`
adds its own cell. -/

namespace Sys2Proof.Machine

open Host (Outcome)

/-! ### Fields as consecutive bytes -/

theorem fieldAt_append (i : Nat) (l r : List Byte) :
    fieldAt i (l ++ r) = fieldAt i l ++ fieldAt (i + l.length) r := by
  induction l generalizing i with
  | nil => rfl
  | cons b l ih =>
    rw [List.cons_append, fieldAt, ih, List.length_cons, fieldAt, List.cons_append,
      show i + 1 + l.length = i + (l.length + 1) by omega]

theorem mem_fieldAt {i : Nat} {l : List Byte} {e : Nat × Byte} :
    e ∈ fieldAt i l ↔ ∃ k, e.1 = i + k ∧ l[k]? = some e.2 := by
  induction l generalizing i with
  | nil => simp [fieldAt]
  | cons b l ih =>
    rw [fieldAt, List.mem_cons, ih]
    constructor
    · rintro (rfl | ⟨k, hk, hb⟩)
      · exact ⟨0, rfl, rfl⟩
      · exact ⟨k + 1, by omega, hb⟩
    · rintro ⟨k, hk, hb⟩
      cases k with
      | zero => exact .inl (Prod.ext hk (Option.some.inj hb).symm)
      | succ k => exact .inr ⟨k, by omega, hb⟩

/-- The writes of `PKT.SETN` are those of consecutive fields. -/
theorem pktSetEach_eq_setFields (i : Nat) (l : List Byte) (s : State) :
    pktSetEach .outgoing i l s = setFields (fieldAt i l) s := by
  induction l generalizing i s with
  | nil => rfl
  | cons b l ih => rw [pktSetEach, ih, fieldAt, setFields]

theorem setFields_append (l r : List (Nat × Byte)) (s : State) :
    setFields (l ++ r) s = setFields r (setFields l s) := by
  induction l generalizing s with
  | nil => rfl
  | cons e l ih => rw [List.cons_append, setFields, ih, setFields]

/-! ### What a sequence of writes leaves alone -/

theorem packetOnly_refl (p : PacketId) (s : State) : State.packetOnly p s s := by
  cases p <;> rfl

theorem packetOnly_trans {p : PacketId} {s t u : State} (h : State.packetOnly p s t)
    (h' : State.packetOnly p t u) : State.packetOnly p s u := by
  rw [State.packetOnly, h', h]
  cases p <;> rfl

theorem setFields_packetOnly (l : List (Nat × Byte)) (s : State) :
    State.packetOnly .outgoing s (setFields l s) := by
  induction l generalizing s with
  | nil => exact packetOnly_refl .outgoing s
  | cons e l ih => exact packetOnly_trans (pktSetOp_packetOnly .outgoing e.1 e.2 s) (ih _)

theorem pktSetnOp_packetOnly (p : PacketId) (first : Nat) (bytes : List Byte) (n : Nat) (s : State) :
    State.packetOnly p s (pktSetnOp p first bytes n s) := by
  obtain ⟨_, h⟩ | ⟨_, h⟩ := pktSetnOp_cases p first bytes n s
  · exact packetOnly_of_eq (k := { s.pkt p with errorCode := .maxFrameLengthExceeded }) (d := s.draws)
      (h.trans (by cases p <;> rfl))
  · rw [h]
    exact pktSetEach_packetOnly ..

/-- A recorded `MaxFrameLengthExceeded` stays under further writes. -/
theorem pktSetOp_keeps_overlong {p : PacketId} {s : State} (i : Nat) (v : Byte)
    (h : (s.pkt p).errorCode = .maxFrameLengthExceeded) :
    ((pktSetOp p i v s).pkt p).errorCode = .maxFrameLengthExceeded := by
  by_cases hi : i < s.maxLen p
  · obtain ⟨len, hpkt, _⟩ := pktSetOp_of_lt v hi
    rw [hpkt]
    exact h
  · rw [pktSetOp_of_le v (Nat.le_of_not_lt hi), record_pkt]

theorem setFields_keeps_overlong {s : State} (l : List (Nat × Byte))
    (h : s.out.errorCode = .maxFrameLengthExceeded) :
    (setFields l s).out.errorCode = .maxFrameLengthExceeded := by
  induction l generalizing s with
  | nil => exact h
  | cons e l ih => exact ih (pktSetOp_keeps_overlong (p := .outgoing) e.1 e.2 h)

/-! ### A frame under construction -/

/-- `OUT` is without error, its length is within the frame `f`, and the cells that `w` names hold `f`. -/
structure Builds (f : List Byte) (w : Nat → Prop) (draws : Nat) (s : State) : Prop where
  errorCode : s.out.errorCode = .noError
  checksum : s.out.checksum = 0
  draws : s.draws = draws
  length : s.out.frameLength.toNat ≤ f.length
  cells : ∀ i, w i → i < s.out.frameLength.toNat ∧ s.out.holds f i

theorem builds_pktSetOp {f : List Byte} {w : Nat → Prop} {d i : Nat} {v : Byte} {s : State}
    (h : Builds f w d s) (hmax : f.length ≤ s.cfg.mOut) (hf : f.length < 65536)
    (hv : f[i]? = some v) :
    Builds f (fun j => w j ∨ j = i) d (pktSetOp .outgoing i v s) := by
  have hi : i < f.length := (List.getElem?_eq_some_iff.mp hv).1
  have hiM : i < s.cfg.mOut := by omega
  obtain ⟨len, hpkt, hfit⟩ := pktSetOp_of_lt (p := .outgoing) (s := s) v hiM
  obtain ⟨hlen, hdraws⟩ := hfit (by omega)
  rw [pkt_outgoing] at hpkt hlen
  have hold := h.length
  refine ⟨by rw [hpkt]; exact h.errorCode, by rw [hpkt]; exact h.checksum, hdraws.trans h.draws, ?_,
    fun j hj => ?_⟩ <;> rw [hpkt, withLength_frameLength, hlen]
  · omega
  · have hcell : (s.out.stored s.cfg.mOut i v).holds f j :=
      holds_stored hiM hv (hj.symm.imp_right fun hw => (h.cells j hw).2)
    refine ⟨?_, hcell⟩
    obtain hw | rfl := hj
    · have hbound := (h.cells j hw).1
      omega
    · omega

theorem builds_setFields {f : List Byte} {w : Nat → Prop} {d : Nat} (l : List (Nat × Byte))
    {s : State} (h : Builds f w d s) (hmax : f.length ≤ s.cfg.mOut) (hf : f.length < 65536)
    (hl : ∀ e ∈ l, f[e.1]? = some e.2) :
    Builds f (fun j => w j ∨ j ∈ l.map Prod.fst) d (setFields l s) := by
  induction l generalizing w s with
  | nil => exact ⟨h.errorCode, h.checksum, h.draws, h.length,
      fun i hi => h.cells i (hi.resolve_right List.not_mem_nil)⟩
  | cons e l ih =>
    have hone := builds_pktSetOp h hmax hf (hl e List.mem_cons_self)
    have hcfg : (pktSetOp .outgoing e.1 e.2 s).cfg = s.cfg := by
      rw [pktSetOp_packetOnly .outgoing e.1 e.2 s]; rfl
    have hall := ih hone (hcfg ▸ hmax) fun e' he' => hl e' (List.mem_cons_of_mem _ he')
    refine ⟨hall.errorCode, hall.checksum, hall.draws, hall.length, fun i hi => hall.cells i ?_⟩
    rw [List.map_cons, List.mem_cons] at hi
    tauto

theorem frame_of_builds {f : List Byte} {w : Nat → Prop} {d : Nat} {s : State} (h : Builds f w d s)
    (hall : ∀ i, i < f.length → w i) : s.out.frame = some f := by
  refine frame_of_holds ?_ fun i hi => (h.cells i (hall i hi)).2
  have hle := h.length
  cases hn : f.length with
  | zero => omega
  | succ n =>
    have hlast := (h.cells n (hall n (by omega))).1
    omega

/-! ### The prepare operation (R251) -/

/-- The frame id that a prepare operation takes: the next of 1 to 255, or 0 without acknowledgements. -/
def State.nextId (s : State) : Byte :=
  if s.cfg.ackEnabled then BitVec.ofNat 8 (s.lastFrameId.toNat % 255 + 1) else 0x00

/-- The session's frame id after a prepare operation. -/
def State.idAfter (s : State) : Byte :=
  if s.cfg.ackEnabled then BitVec.ofNat 8 (s.lastFrameId.toNat % 255 + 1) else s.lastFrameId

theorem nextFrameIdOp_eq (s : State) :
    nextFrameIdOp s = (s.nextId, { s with lastFrameId := s.idAfter }) := by
  unfold nextFrameIdOp State.nextId State.idAfter
  split <;> rfl

/-- A prepare operation up to its frame id. -/
def withoutId (n : Nat) (payload : List Byte) (fields : List (Nat × Byte)) (s : State) : State :=
  setFields fields (pktSetnOp .outgoing n payload payload.length (packetReset .outgoing s))

theorem withoutId_packetOnly (n : Nat) (payload : List Byte) (fields : List (Nat × Byte)) (s : State) :
    State.packetOnly .outgoing s (withoutId n payload fields s) :=
  have hreset : State.packetOnly .outgoing s (packetReset .outgoing s) := rfl
  packetOnly_trans hreset (packetOnly_trans
    (pktSetnOp_packetOnly .outgoing n payload payload.length _) (setFields_packetOnly fields _))

theorem prepareFrame_eq (n : Nat) (payload : List Byte) (fields : List (Nat × Byte)) (s : State) :
    prepareFrame n payload fields s =
      pktSetOp .outgoing 1 s.nextId
        { withoutId n payload fields s with lastFrameId := s.idAfter } := by
  have hid : (withoutId n payload fields s).nextId = s.nextId := by
    rw [withoutId_packetOnly n payload fields s]; rfl
  have hafter : (withoutId n payload fields s).idAfter = s.idAfter := by
    rw [withoutId_packetOnly n payload fields s]; rfl
  have hnext := nextFrameIdOp_eq (withoutId n payload fields s)
  rw [hid, hafter] at hnext
  exact congrArg (fun r : Byte × State => pktSetOp .outgoing 1 r.1 r.2) hnext

/-- What a prepare operation may change: `OUT`, the frame id and the count of free values. -/
theorem prepareFrame_frame (n : Nat) (payload : List Byte) (fields : List (Nat × Byte)) (s : State) :
    prepareFrame n payload fields s = { s with
      out := (prepareFrame n payload fields s).out
      lastFrameId := s.idAfter
      draws := (prepareFrame n payload fields s).draws } := by
  have hid := pktSetOp_packetOnly .outgoing 1 s.nextId
    { withoutId n payload fields s with lastFrameId := s.idAfter }
  rw [← prepareFrame_eq] at hid
  exact hid.trans (congrArg (fun u : State => { u with
    out := (prepareFrame n payload fields s).out
    lastFrameId := s.idAfter
    draws := (prepareFrame n payload fields s).draws })
    (withoutId_packetOnly n payload fields s))

theorem prepareFrame_overlong {n : Nat} {payload : List Byte} {s : State}
    (fields : List (Nat × Byte)) (h : s.cfg.mOut < n + payload.length) :
    (prepareFrame n payload fields s).out.errorCode = .maxFrameLengthExceeded := by
  rw [prepareFrame_eq]
  refine pktSetOp_keeps_overlong (p := .outgoing) 1 _ (setFields_keeps_overlong fields ?_)
  obtain ⟨_, he⟩ | ⟨hle, _⟩ :=
    pktSetnOp_cases .outgoing n payload payload.length (packetReset .outgoing s)
  · rw [he]; rfl
  · exact absurd h (Nat.not_lt.mpr hle)

/-- A prepare operation within the ceiling builds the frame `code id middle payload`. -/
theorem prepareFrame_builds (code : Byte) (middle payload : List Byte) {s : State}
    (hmax : middle.length + 2 + payload.length ≤ s.cfg.mOut)
    (hlen : middle.length + 2 + payload.length < 65536) :
    let t := prepareFrame (middle.length + 2) payload ((0, code) :: fieldAt 2 middle) s
    t.out.errorCode = .noError ∧ t.out.checksum = 0 ∧ t.draws = s.draws ∧
      t.out.frame = some (code :: s.nextId :: (middle ++ payload)) := by
  intro t
  generalize hf : code :: s.nextId :: (middle ++ payload) = f
  have hflen : f.length = middle.length + 2 + payload.length := by
    rw [← hf]
    simp only [List.length_cons, List.length_append]
    omega
  have hwrites : withoutId (middle.length + 2) payload ((0, code) :: fieldAt 2 middle) s =
      setFields (fieldAt (middle.length + 2) payload ++ (0, code) :: fieldAt 2 middle)
        (packetReset .outgoing s) := by
    have hfits : ¬ (packetReset .outgoing s).maxLen .outgoing <
        middle.length + 2 + payload.length := Nat.not_lt.mpr hmax
    rw [withoutId, pktSetnOp, if_neg hfits, List.take_length, pktSetEach_eq_setFields, setFields_append]
  have hstart : Builds f (fun _ => False) s.draws (packetReset .outgoing s) :=
    ⟨rfl, rfl, rfl, Nat.zero_le _, nofun⟩
  have hfields := builds_setFields
    (fieldAt (middle.length + 2) payload ++ (0, code) :: fieldAt 2 middle) hstart
    (show f.length ≤ s.cfg.mOut by omega) (by omega) fun e he => by
      rw [← hf]
      obtain he | he := List.mem_append.mp he
      · obtain ⟨k, hk, hb⟩ := mem_fieldAt.mp he
        rw [hk, show middle.length + 2 + k = middle.length + k + 1 + 1 by omega,
          List.getElem?_cons_succ, List.getElem?_cons_succ,
          List.getElem?_append_right (Nat.le_add_right _ _), Nat.add_sub_cancel_left, hb]
      · obtain rfl | he := List.mem_cons.mp he
        · rfl
        · obtain ⟨k, hk, hb⟩ := mem_fieldAt.mp he
          have hkm : k < middle.length := (List.getElem?_eq_some_iff.mp hb).1
          rw [hk, show 2 + k = k + 1 + 1 by omega, List.getElem?_cons_succ,
            List.getElem?_cons_succ, List.getElem?_append_left hkm, hb]
  rw [← hwrites] at hfields
  have hid : Builds f _ s.draws
      { withoutId (middle.length + 2) payload ((0, code) :: fieldAt 2 middle) s with
        lastFrameId := s.idAfter } :=
    ⟨hfields.errorCode, hfields.checksum, hfields.draws, hfields.length, hfields.cells⟩
  have hcfg : (withoutId (middle.length + 2) payload ((0, code) :: fieldAt 2 middle) s).cfg =
      s.cfg := by
    rw [withoutId_packetOnly (middle.length + 2) payload _ s]; rfl
  have hdone := builds_pktSetOp (i := 1) (v := s.nextId) hid (show f.length ≤ _ by rw [hcfg]; omega)
    (by omega) (by rw [← hf]; rfl)
  rw [← prepareFrame_eq] at hdone
  refine ⟨hdone.errorCode, hdone.checksum, hdone.draws, frame_of_builds hdone fun i hi => ?_⟩
  by_cases h1 : i = 1
  · exact .inr h1
  refine .inl (.inr ?_)
  rw [List.map_append, List.mem_append, List.map_cons, List.mem_cons]
  by_cases h0 : i = 0
  · exact .inr (.inl h0)
  by_cases hm : i < middle.length + 2
  · refine .inr (.inr (List.mem_map.mpr ⟨(i, middle[i - 2]), mem_fieldAt.mpr ⟨i - 2, ?_, ?_⟩, rfl⟩))
    · show i = 2 + (i - 2)
      omega
    · exact List.getElem?_eq_getElem (by omega)
  · refine .inl (List.mem_map.mpr
      ⟨(i, payload[i - (middle.length + 2)]), mem_fieldAt.mpr ⟨i - (middle.length + 2), ?_, ?_⟩, rfl⟩)
    · show i = middle.length + 2 + (i - (middle.length + 2))
      omega
    · exact List.getElem?_eq_getElem (by omega)

/-- What each of the three prepare operations answers. -/
theorem prepare_spec (code : Byte) (middle payload : List Byte) (s : State) :
    let t := answer .none
      (prepareFrame (middle.length + 2) payload ((0, code) :: fieldAt 2 middle) s)
    t = { s with out := t.out, lastFrameId := t.lastFrameId, result := .none, draws := t.draws } ∧
    t.lastFrameId = s.idAfter ∧
    (s.cfg.mOut < middle.length + 2 + payload.length →
      t.out.errorCode = .maxFrameLengthExceeded) ∧
    (middle.length + 2 + payload.length ≤ s.cfg.mOut → middle.length + 2 + payload.length < 65536 →
      t.out.errorCode = .noError ∧ t.out.checksum = 0 ∧ t.draws = s.draws ∧
      t.out.frame = some (code :: (if s.cfg.ackEnabled then t.lastFrameId else 0x00) ::
        (middle ++ payload))) := by
  intro t
  have hframe := prepareFrame_frame (middle.length + 2) payload ((0, code) :: fieldAt 2 middle) s
  have hlast : t.lastFrameId = s.idAfter := congrArg State.lastFrameId hframe
  have hid : (if s.cfg.ackEnabled then t.lastFrameId else 0x00) = s.nextId := by
    rw [hlast, State.idAfter, State.nextId]
    split <;> rfl
  refine ⟨?_, hlast, prepareFrame_overlong _, fun hmax hlen => ?_⟩
  · rw [hlast]
    exact congrArg (answer .none) hframe
  · rw [hid]
    exact prepareFrame_builds code middle payload hmax hlen

/-- The two fields of an address pair are its ten bytes. -/
theorem addressBytes_eq (msb : Bool) (addr64 : Option Address64) (addr16 : Option Half) :
    fieldBytes64 msb (addr64.getD broadcastAddr64).high (addr64.getD broadcastAddr64).low ++
      fieldBytes16 msb (addr16.getD broadcastAddr16) = addressBytes msb addr64 addr16 := by
  rw [addressBytes, addr64Operand_eq, addr16Operand_eq]

end Sys2Proof.Machine

namespace Sys2Proof.FieldLayer

open Machine

/-- Settles O53: the middle of the frame is the command. -/
theorem prepareAtCommand : Obligations.PrepareAtCommand :=
  fun s a => ⟨_, rfl, prepare_spec 0x08 [a.command0, a.command1] a.payload s⟩

/-- Settles O54: the middle of the frame is the ten address bytes, the radius and the options. -/
theorem prepareTransmitRequest : Obligations.PrepareTransmitRequest := by
  intro s a addr64 addr16
  refine ⟨_, rfl, ?_⟩
  rw [addressBytes_eq]
  have hspec := prepare_spec 0x10
    (addressBytes s.cfg.fieldMsbFirst a.addr64 a.addr16 ++ [a.radius, a.options]) a.payload s
  rw [fieldAt_append, List.append_assoc, List.length_append, addressBytes_length] at hspec
  exact hspec

/-- Settles O55: the middle of the frame is the ten address bytes, the options and the command. -/
theorem prepareRemoteAtCommand : Obligations.PrepareRemoteAtCommand := by
  intro s a addr64 addr16
  refine ⟨_, rfl, ?_⟩
  rw [addressBytes_eq]
  have hspec := prepare_spec 0x17 (addressBytes s.cfg.fieldMsbFirst a.addr64 a.addr16 ++
    [a.options, a.command0, a.command1]) a.payload s
  rw [fieldAt_append, List.append_assoc, List.length_append, addressBytes_length] at hspec
  exact hspec

end Sys2Proof.FieldLayer

/-! O56 to O59: the field decoders (R244 to R250, R254, R258, R259).

`Reads s n t` says that `t` is `s` after policed reads of indices below `n`; each reader takes it from the
first index that it reads to the one behind the last. -/

namespace Sys2Proof.Machine

open Host (Outcome)

/-! ### Fields of two and of eight bytes -/

theorem fieldBytes16_field16 (msb : Bool) (a b : Byte) :
    fieldBytes16 msb (field16 msb a b) = [a, b] := by
  cases msb <;> simp [fieldBytes16, field16]

theorem fieldBytes16_injective (msb : Bool) {g h : Half}
    (hgh : fieldBytes16 msb g = fieldBytes16 msb h) : g = h := by
  have hhalves : halfMsb g = halfMsb h ∧ halfLsb g = halfLsb h := by
    cases msb <;> simpa [fieldBytes16, and_comm] using hgh
  rw [← halfMsb_append_halfLsb g, hhalves.1, hhalves.2, halfMsb_append_halfLsb]

theorem fieldBytes16_length (msb : Bool) (h : Half) : (fieldBytes16 msb h).length = 2 := by
  cases msb <;> rfl

theorem fieldBytes64_length (msb : Bool) (high low : BitVec 32) :
    (fieldBytes64 msb high low).length = 8 := by
  cases msb <;> rfl

theorem bytesValue_wordBytes (w : BitVec 32) : bytesValue (wordBytes w) = w.toNat := by
  have hw := w.isLt
  simp only [bytesValue, wordBytes, List.foldl_cons, List.foldl_nil, BitVec.extractLsb'_toNat,
    Nat.shiftRight_eq_div_pow]
  omega

theorem wordBytes_bytesValue {l : List Byte} (h : l.length = 4) :
    wordBytes (BitVec.ofNat 32 (bytesValue l)) = l := by
  obtain ⟨a, b, c, d, rfl⟩ := List.length_eq_four.mp h
  have ha := a.isLt
  have hb := b.isLt
  have hc := c.isLt
  have hd := d.isLt
  simp only [bytesValue, wordBytes, List.foldl_cons, List.foldl_nil, List.cons.injEq, and_true]
  refine ⟨?_, ?_, ?_, ?_⟩ <;> apply BitVec.eq_of_toNat_eq <;>
    simp only [BitVec.extractLsb'_toNat, BitVec.toNat_ofNat, Nat.shiftRight_eq_div_pow] <;> omega

theorem fieldBytes64_field64 (msb : Bool) {l : List Byte} (h : l.length = 8) :
    fieldBytes64 msb (field64 msb l).1 (field64 msb l).2 = l := by
  have hhalves {o : List Byte} (ho : o.length = 8) :
      wordBytes (BitVec.ofNat 32 (bytesValue (o.take 4))) ++
        wordBytes (BitVec.ofNat 32 (bytesValue (o.drop 4))) = o := by
    rw [wordBytes_bytesValue (by rw [List.length_take]; omega),
      wordBytes_bytesValue (by rw [List.length_drop]; omega), List.take_append_drop]
  cases msb with
  | true => exact hhalves h
  | false =>
    have hrev := hhalves (o := l.reverse) (by rw [List.length_reverse]; exact h)
    exact (congrArg List.reverse hrev).trans l.reverse_reverse

theorem fieldBytes64_injective (msb : Bool) {a b : Address64}
    (h : fieldBytes64 msb a.high a.low = fieldBytes64 msb b.high b.low) : a = b := by
  have hbytes : wordBytes a.high ++ wordBytes a.low = wordBytes b.high ++ wordBytes b.low := by
    cases msb with
    | true => exact h
    | false => exact List.reverse_injective h
  obtain ⟨hhigh, hlow⟩ := List.append_inj hbytes rfl
  have hword {v w : BitVec 32} (hvw : wordBytes v = wordBytes w) : v = w :=
    BitVec.eq_of_toNat_eq (by rw [← bytesValue_wordBytes, hvw, bytesValue_wordBytes])
  obtain ⟨ahigh, alow⟩ := a
  obtain ⟨bhigh, blow⟩ := b
  rw [Address64.mk.injEq]
  exact ⟨hword hhigh, hword hlow⟩

/-! ### The values that policed reads may give -/

theorem readsSpan_append {k : Packet} {i : Nat} {l r : List Byte} (hl : k.readsSpan i l)
    (hr : k.readsSpan (i + l.length) r) : k.readsSpan i (l ++ r) := by
  intro j hj
  by_cases hjl : j < l.length
  · rw [List.getElem_append_left hjl]
    exact hl j hjl
  · rw [List.getElem_append_right (Nat.le_of_not_lt hjl)]
    have hread := hr (j - l.length) (by rw [List.length_append] at hj; omega)
    rwa [show i + l.length + (j - l.length) = i + j by omega] at hread

theorem readsSpan_singleton {k : Packet} {i : Nat} {v : Byte} : k.readsSpan i [v] ↔ k.readsAs i v := by
  refine ⟨fun h => h 0 Nat.zero_lt_one, fun h j hj => ?_⟩
  obtain rfl : j = 0 := by rw [List.length_singleton] at hj; omega
  exact h

/-- Inside a frame a read gives the frame's byte. -/
theorem readsAs_of_frame {k : Packet} {f : List Byte} {i : Nat} {v : Byte} (hf : k.frame = some f)
    (hi : i < f.length) (h : k.readsAs i v) : v = f[i] := by
  obtain ⟨hlen, hcells⟩ := (frame_eq_some_iff k f).mp hf
  rw [Packet.readsAs, if_pos (by omega), hcells i hi] at h
  simpa [eq_comm] using h

theorem readsSpan_of_frame {k : Packet} {l m r bytes : List Byte} (hf : k.frame = some (l ++ (m ++ r)))
    (h : k.readsSpan l.length bytes) (hlen : bytes.length = m.length) : bytes = m := by
  refine List.ext_getElem hlen fun j hj hjm => ?_
  rw [readsAs_of_frame hf (by simp only [List.length_append]; omega) (h j hj),
    List.getElem_append_right (Nat.le_add_right ..)]
  simp only [Nat.add_sub_cancel_left]
  exact List.getElem_append_left hjm

theorem readsPayload_of_frame {k : Packet} {l r : List Byte} {p : Option (List Byte)}
    (hf : k.frame = some (l ++ r)) (h : k.readsPayload l.length p) : p = some r := by
  obtain ⟨hlen, -⟩ := (frame_eq_some_iff ..).mp hf
  rw [List.length_append] at hlen
  cases p with
  | none =>
    have hshort : k.frameLength.toNat < l.length := h
    omega
  | some bytes =>
    obtain ⟨hbytes, hspan⟩ := h
    rw [← List.append_nil r] at hf
    rw [readsSpan_of_frame hf hspan (by omega)]

/-- Policed reads inside the frame record nothing. -/
theorem policed_of_le {k : Packet} {n : Nat} (h : n ≤ k.frameLength.toNat) : k.policed n = k := by
  rw [Packet.policed, if_neg (Nat.not_lt.mpr h)]

/-! ### Readers -/

/-- `t` is `s` after policed reads of indices below `n`; a frame with all its cells draws no value. -/
structure Reads (s : State) (n : Nat) (t : State) : Prop where
  state : t = { s with inp := s.inp.policed n, draws := t.draws }
  draws : s.inp.frame ≠ none → t.draws = s.draws

theorem reads_self {s : State} {n : Nat} (h : n ≤ s.inp.frameLength.toNat) : Reads s n s :=
  ⟨by rw [policed_of_le h], fun _ => rfl⟩

theorem Reads.inp {s t : State} {n : Nat} (h : Reads s n t) : t.inp = s.inp.policed n := by
  rw [h.state]

theorem Reads.cfg {s t : State} {n : Nat} (h : Reads s n t) : t.cfg = s.cfg := by
  rw [h.state]

/-- One policed read. -/
theorem Reads.pktGetOp {s t : State} {n i : Nat} (h : Reads s n t) (hn : n ≤ i) :
    ∃ v u, Machine.pktGetOp .incoming i t = (v, u) ∧ s.inp.readsAs i v ∧ Reads s (i + 1) u := by
  obtain ⟨hread, d, hbelow, habove, hstate⟩ := pktGetOp_incoming i t
  rw [h.inp] at hread
  refine ⟨(Machine.pktGetOp .incoming i t).1, { t with inp := t.inp.policed (i + 1), draws := d },
    Prod.ext rfl hstate, hread, ?_, fun hf => ?_⟩
  · rw [h.inp, policed_policed, Nat.max_eq_right (by omega), h.state]
  · refine Eq.trans ?_ (h.draws hf)
    by_cases hi : i < s.inp.frameLength.toNat
    · obtain ⟨f, hframe⟩ := Option.ne_none_iff_exists'.mp hf
      obtain ⟨hlen, hcells⟩ := (frame_eq_some_iff ..).mp hframe
      have hcell : t.inp.peek i = some (f[i]'(by omega)) := by
        rw [h.inp]
        exact hcells i (by omega)
      refine (hbelow (by rw [h.inp]; exact hi)).resolve_left fun hnone => ?_
      rw [hnone] at hcell
      contradiction
    · exact habove (by rw [h.inp]; exact Nat.le_of_not_lt hi)

theorem Reads.readSpan {s t : State} {n i : Nat} (len : Nat) (h : Reads s n t) (hn : n ≤ i)
    (hlen : 0 < len) :
    ∃ bytes u, Machine.readSpan i len t = (bytes, u) ∧ bytes.length = len ∧
      s.inp.readsSpan i bytes ∧ Reads s (i + len) u := by
  induction len generalizing i n t with
  | zero => contradiction
  | succ len ih =>
    obtain ⟨v, w, hget, hread, hreads⟩ := h.pktGetOp hn
    rw [Machine.readSpan, hget]
    cases len with
    | zero => exact ⟨[v], w, rfl, rfl, readsSpan_singleton.mpr hread, hreads⟩
    | succ len =>
      obtain ⟨bytes, u, hspan, hlength, hbytes, hu⟩ := ih hreads (Nat.le_refl _) (Nat.succ_pos len)
      refine ⟨v :: bytes, u, ?_, ?_, readsSpan_append (readsSpan_singleton.mpr hread) hbytes, ?_⟩
      · exact congrArg (fun r : List Byte × State => (v :: r.1, r.2)) hspan
      · rw [List.length_cons, hlength]
      · rwa [show i + 1 + (len + 1) = i + (len + 1 + 1) by omega] at hu

theorem Reads.readField1 {s t : State} {n : Nat} (i : Nat) (h : Reads s n t) (hn : n ≤ i) :
    ∃ v u, Machine.readField1 (some i) t = (some v, u) ∧ s.inp.readsAs i v ∧ Reads s (i + 1) u := by
  obtain ⟨v, u, hget, hread, hu⟩ := h.pktGetOp hn
  exact ⟨v, u, by rw [Machine.readField1, hget], hread, hu⟩

/-- Two policed reads in a row, as commands and 16-bit addresses need them. -/
theorem Reads.pktGetOp_two {s t : State} {n i : Nat} (h : Reads s n t) (hn : n ≤ i) :
    ∃ a b v u, Machine.pktGetOp .incoming i t = (a, v) ∧ Machine.pktGetOp .incoming (i + 1) v = (b, u) ∧
      s.inp.readsSpan i [a, b] ∧ Reads s (i + 2) u := by
  obtain ⟨a, v, hget, ha, hv⟩ := h.pktGetOp hn
  obtain ⟨b, u, hget', hb, hu⟩ := hv.pktGetOp (Nat.le_refl _)
  exact ⟨a, b, v, u, hget, hget',
    readsSpan_append (readsSpan_singleton.mpr ha) (readsSpan_singleton.mpr hb), hu⟩

theorem Reads.readCommand {s t : State} {n : Nat} (i : Nat) (h : Reads s n t) (hn : n ≤ i) :
    ∃ a b u, Machine.readCommand (some i) t = (some (a, b), u) ∧ s.inp.readsSpan i [a, b] ∧
      Reads s (i + 2) u := by
  obtain ⟨a, b, v, u, ha, hb, hspan, hu⟩ := h.pktGetOp_two hn
  exact ⟨a, b, u, by simp only [Machine.readCommand, ha, hb], hspan, hu⟩

theorem Reads.readAddr16 {s t : State} {n : Nat} (i : Nat) (h : Reads s n t) (hn : n ≤ i) :
    ∃ g u, Machine.readAddr16 (some i) t = (some g, u) ∧
      s.inp.readsSpan i (fieldBytes16 s.cfg.fieldMsbFirst g) ∧ Reads s (i + 2) u := by
  obtain ⟨a, b, v, u, ha, hb, hspan, hu⟩ := h.pktGetOp_two hn
  refine ⟨field16 s.cfg.fieldMsbFirst a b, u, ?_, by rwa [fieldBytes16_field16], hu⟩
  simp only [Machine.readAddr16, ha, hb, hu.cfg]

theorem Reads.readAddr64 {s t : State} {n : Nat} (i : Nat) (h : Reads s n t) (hn : n ≤ i) :
    ∃ a u, Machine.readAddr64 (some i) t = (some a, u) ∧
      s.inp.readsSpan i (fieldBytes64 s.cfg.fieldMsbFirst a.high a.low) ∧ Reads s (i + 8) u := by
  obtain ⟨bytes, u, hspan, hlen, hbytes, hu⟩ := h.readSpan 8 hn (by omega)
  refine ⟨{ high := (field64 s.cfg.fieldMsbFirst bytes).1, low := (field64 s.cfg.fieldMsbFirst bytes).2 },
    u, ?_, ?_, hu⟩
  · simp only [Machine.readAddr64, hspan, hu.cfg]
  · rwa [fieldBytes64_field64 _ hlen]

/-- The payload span ends with the frame, so its reads record nothing. -/
theorem Reads.readPayload {s t : State} {n : Nat} (i : Nat) (h : Reads s n t) (hn : n ≤ i) :
    ∃ p u, Machine.readPayload (some i) t = (p, u) ∧ s.inp.readsPayload i p ∧ Reads s n u := by
  have hlength : t.inp.frameLength = s.inp.frameLength := by rw [h.inp, policed_frameLength]
  rw [Machine.readPayload, hlength]
  obtain hlt | heq | hgt := Nat.lt_trichotomy s.inp.frameLength.toNat i
  · exact ⟨none, t, if_pos hlt, hlt, h⟩
  · refine ⟨some [], t, ?_, ⟨heq.symm, nofun⟩, h⟩
    rw [if_neg (by omega), heq, Nat.sub_self]
    rfl
  · obtain ⟨bytes, u, hspan, hlen, hbytes, hu⟩ :=
      h.readSpan (s.inp.frameLength.toNat - i) hn (by omega)
    rw [if_neg (by omega), hspan]
    refine ⟨some bytes, u, rfl, ⟨by omega, hbytes⟩, ?_, hu.draws⟩
    have hstate := hu.state
    rwa [policed_of_le (by omega), ← policed_of_le (k := s.inp) (n := n) (by omega)] at hstate

/-! An absent field is not read. -/

@[simp] theorem readField1_none (s : State) : readField1 none s = (none, s) := rfl
@[simp] theorem readCommand_none (s : State) : readCommand none s = (none, s) := rfl
@[simp] theorem readAddr16_none (s : State) : readAddr16 none s = (none, s) := rfl
@[simp] theorem readAddr64_none (s : State) : readAddr64 none s = (none, s) := rfl
@[simp] theorem readPayload_none (s : State) : readPayload none s = (none, s) := rfl

/-! ### The five layouts

Each lemma reads the fields of one layout, in the order of their indices. -/

theorem Reads.atCommandResponse {s t : State} (h : Reads s 1 t) :
    ∃ id c0 c1 v p u,
      readFields 0x88 atCommandResponseLayout t =
        ({ frameType := 0x88, frameId := some id, addr64 := none, addr16 := none,
           command := some (c0, c1), status := some v, options := none, retries := none,
           deliveryStatus := none, discoveryStatus := none, payload := p }, u) ∧
      s.inp.readsSpan 1 [id, c0, c1, v] ∧ s.inp.readsPayload 5 p ∧ Reads s 5 u := by
  obtain ⟨id, t1, hid, hidSpan, h1⟩ := h.readField1 1 (by omega)
  obtain ⟨c0, c1, t2, hcommand, hcommandSpan, h2⟩ := h1.readCommand 2 (by omega)
  obtain ⟨v, t3, hstatus, hstatusSpan, h3⟩ := h2.readField1 4 (by omega)
  obtain ⟨p, u, hpayload, hpayloadSpan, h4⟩ := h3.readPayload 5 (by omega)
  rw [← readsSpan_singleton] at hidSpan hstatusSpan
  refine ⟨id, c0, c1, v, p, u, ?_,
    readsSpan_append hidSpan (readsSpan_append hcommandSpan hstatusSpan), hpayloadSpan, h4⟩
  simp [readFields, atCommandResponseLayout, hid, hcommand, hstatus, hpayload]

theorem Reads.modemStatus {s t : State} (h : Reads s 1 t) :
    ∃ v u,
      readFields 0x8A modemStatusLayout t =
        ({ frameType := 0x8A, frameId := none, addr64 := none, addr16 := none, command := none,
           status := some v, options := none, retries := none, deliveryStatus := none,
           discoveryStatus := none, payload := none }, u) ∧
      s.inp.readsAs 1 v ∧ Reads s 2 u := by
  obtain ⟨v, u, hstatus, hread, hu⟩ := h.readField1 1 (by omega)
  exact ⟨v, u, by simp [readFields, modemStatusLayout, hstatus], hread, hu⟩

theorem Reads.txStatus {s t : State} (h : Reads s 1 t) :
    ∃ g id r d e u,
      readFields 0x8B txStatusLayout t =
        ({ frameType := 0x8B, frameId := some id, addr64 := none, addr16 := some g, command := none,
           status := none, options := none, retries := some r, deliveryStatus := some d,
           discoveryStatus := some e, payload := none }, u) ∧
      s.inp.readsAs 1 id ∧ s.inp.readsSpan 4 [r, d, e] ∧ Reads s 7 u := by
  obtain ⟨id, t1, hid, hidRead, h1⟩ := h.readField1 1 (by omega)
  obtain ⟨r, t2, hretries, hretriesSpan, h2⟩ := h1.readField1 4 (by omega)
  obtain ⟨d, t3, hdelivery, hdeliverySpan, h3⟩ := h2.readField1 5 (by omega)
  obtain ⟨e, u, hdiscovery, hdiscoverySpan, h4⟩ := h3.readField1 6 (by omega)
  rw [← readsSpan_singleton] at hretriesSpan hdeliverySpan hdiscoverySpan
  exact ⟨derivedAddr16 t1, id, r, d, e, u,
    by simp [readFields, txStatusLayout, hid, hretries, hdelivery, hdiscovery], hidRead,
    readsSpan_append hretriesSpan (readsSpan_append hdeliverySpan hdiscoverySpan), h4⟩

theorem Reads.rxReceived {s t : State} (h : Reads s 1 t) :
    ∃ o a g p u,
      readFields 0x90 rxReceivedLayout t =
        ({ frameType := 0x90, frameId := none, addr64 := some a, addr16 := some g, command := none,
           status := none, options := some o, retries := none, deliveryStatus := none,
           discoveryStatus := none, payload := p }, u) ∧
      s.inp.readsSpan 1 (fieldBytes64 s.cfg.fieldMsbFirst a.high a.low ++
        fieldBytes16 s.cfg.fieldMsbFirst g ++ [o]) ∧
      s.inp.readsPayload 12 p ∧ Reads s 12 u := by
  obtain ⟨a, t1, haddr64, haddr64Span, h1⟩ := h.readAddr64 1 (by omega)
  obtain ⟨g, t2, haddr16, haddr16Span, h2⟩ := h1.readAddr16 9 (by omega)
  obtain ⟨o, t3, hoptions, hoptionsSpan, h3⟩ := h2.readField1 11 (by omega)
  obtain ⟨p, u, hpayload, hpayloadSpan, h4⟩ := h3.readPayload 12 (by omega)
  rw [← readsSpan_singleton] at hoptionsSpan
  refine ⟨o, a, g, p, u, by simp [readFields, rxReceivedLayout, haddr64, haddr16, hoptions, hpayload],
    readsSpan_append (readsSpan_append haddr64Span ?_) ?_, hpayloadSpan, h4⟩
  · rwa [fieldBytes64_length]
  · rwa [List.length_append, fieldBytes64_length, fieldBytes16_length]

theorem Reads.remoteAtCommandResponse {s t : State} (h : Reads s 1 t) :
    ∃ id c0 c1 v a g p u,
      readFields 0x97 remoteAtCommandResponseLayout t =
        ({ frameType := 0x97, frameId := some id, addr64 := some a, addr16 := some g,
           command := some (c0, c1), status := some v, options := none, retries := none,
           deliveryStatus := none, discoveryStatus := none, payload := p }, u) ∧
      s.inp.readsSpan 1 (id :: (fieldBytes64 s.cfg.fieldMsbFirst a.high a.low ++
        fieldBytes16 s.cfg.fieldMsbFirst g ++ [c0, c1, v])) ∧
      s.inp.readsPayload 15 p ∧ Reads s 15 u := by
  obtain ⟨id, t1, hid, hidSpan, h1⟩ := h.readField1 1 (by omega)
  obtain ⟨a, t2, haddr64, haddr64Span, h2⟩ := h1.readAddr64 2 (by omega)
  obtain ⟨g, t3, haddr16, haddr16Span, h3⟩ := h2.readAddr16 10 (by omega)
  obtain ⟨c0, c1, t4, hcommand, hcommandSpan, h4⟩ := h3.readCommand 12 (by omega)
  obtain ⟨v, t5, hstatus, hstatusSpan, h5⟩ := h4.readField1 14 (by omega)
  obtain ⟨p, u, hpayload, hpayloadSpan, h6⟩ := h5.readPayload 15 (by omega)
  rw [← readsSpan_singleton] at hidSpan hstatusSpan
  refine ⟨id, c0, c1, v, a, g, p, u,
    by simp [readFields, remoteAtCommandResponseLayout, hid, haddr64, haddr16, hcommand, hstatus, hpayload],
    readsSpan_append hidSpan (readsSpan_append (readsSpan_append haddr64Span ?_) ?_), hpayloadSpan, h6⟩
  · rwa [fieldBytes64_length]
  · rw [List.length_append, fieldBytes64_length, fieldBytes16_length]
    exact readsSpan_append hcommandSpan hstatusSpan

/-! ### The type byte (R249) -/

/-- The read of the type byte of a frame that has one. -/
theorem pktGetOp_of_peek {s : State} {i : Nat} {v : Byte} (hi : i < s.inp.frameLength.toNat)
    (hv : s.inp.peek i = some v) : pktGetOp .incoming i s = (v, s) := by
  obtain ⟨_, hget⟩ | ⟨hle, _⟩ := pktGetOp_cases .incoming i s
  · obtain ⟨b, hb, hread⟩ | ⟨hnone, _⟩ := bufGetOp_cases .incoming i s
    · rw [hget, hread, Option.some.inj (hv.symm.trans hb)]
    · exact absurd (hv.symm.trans hnone) nofun
  · exact absurd hi (Nat.not_lt.mpr hle)

theorem frameLength_pos {s : State} (h : s.inp.frameLength ≠ 0) : 0 < s.inp.frameLength.toNat :=
  Nat.pos_of_ne_zero fun hzero => h (BitVec.eq_of_toNat_eq hzero)

theorem type_of_frame {k : Packet} {code : Byte} {rest : List Byte}
    (hf : k.frame = some (code :: rest)) : k.frameLength ≠ 0 ∧ k.peek 0 = some code := by
  obtain ⟨hlen, hcells⟩ := (frame_eq_some_iff ..).mp hf
  refine ⟨fun hzero => ?_, hcells 0 (Nat.succ_pos _)⟩
  rw [hzero] at hlen
  exact absurd hlen nofun

theorem policed_of_frame {k : Packet} {f : List Byte} {n : Nat} (hf : k.frame = some f)
    (hn : n ≤ f.length) : k.policed n = k :=
  policed_of_le (((frame_eq_some_iff ..).mp hf).1 ▸ hn)

/-- On a frame of its type a field decoder reads the fields of its layout. -/
theorem readFrame_of_type {s u : State} {code : Byte} {l : Layout} {f : FrameFields} {n : Nat}
    (hlen : s.inp.frameLength ≠ 0) (hcode : s.inp.peek 0 = some code)
    (hfields : readFields code l s = (f, u)) (hu : Reads s n u) :
    readFrame code l s =
      { s with inp := s.inp.policed n, result := .fields f, draws := u.draws } := by
  rw [readFrame, pktGetOp_of_peek (frameLength_pos hlen) hcode, if_pos rfl, hfields]
  exact congrArg (answer (.fields f)) hu.state

theorem reads_type {s : State} (h : s.inp.frameLength ≠ 0) : Reads s 1 s :=
  reads_self (frameLength_pos h)

/-- On a whole frame of its type it records nothing and draws no value. -/
theorem readFrame_of_frame {s u : State} {code : Byte} {l : Layout} {f : FrameFields} {n : Nat}
    {rest : List Byte} (hf : s.inp.frame = some (code :: rest)) (hfields : readFields code l s = (f, u))
    (hu : Reads s n u) (hn : n ≤ rest.length + 1) :
    readFrame code l s = { s with result := .fields f } := by
  rw [readFrame_of_type (type_of_frame hf).1 (type_of_frame hf).2 hfields hu, policed_of_frame hf hn,
    hu.draws (by rw [hf]; nofun)]

/-- Settles O56: on a whole frame the reads give its bytes and record nothing. -/
theorem readStatusFrames : Obligations.ReadStatusFrames := by
  intro s status id a0 a1 retries delivery discovery rest modem tx
  refine ⟨fun hf => ?_, fun hf => ?_, fun hf => ?_, fun hlen hcode => ?_, fun hlen hcode => ?_⟩
  · obtain ⟨v, u, hfields, hread, hu⟩ := (reads_type (type_of_frame hf).1).modemStatus
    obtain rfl : v = status := readsAs_of_frame hf (by simp) hread
    exact congrArg Outcome.next (readFrame_of_frame hf hfields hu (by simp))
  · obtain ⟨v, u, hfields, hread, hu⟩ := (reads_type (type_of_frame hf).1).modemStatus
    have hlen : s.inp.frameLength.toNat = 1 := ((frame_eq_some_iff ..).mp hf).1.symm
    obtain rfl : v = 0x00 := by simpa [Packet.readsAs, hlen] using hread
    have hexec := readFrame_of_type (type_of_frame hf).1 (type_of_frame hf).2 hfields hu
    rw [hu.draws (by rw [hf]; nofun), Packet.policed, if_pos (by omega)] at hexec
    exact congrArg Outcome.next hexec
  · obtain ⟨v, id', r, d, e, u, hfields, hread, hspan, hu⟩ :=
      (reads_type (type_of_frame hf).1).txStatus
    obtain rfl : id' = id := readsAs_of_frame hf (by simp) hread
    have hbytes : [r, d, e] = [retries, delivery, discovery] :=
      readsSpan_of_frame (l := [0x8B, id', a0, a1]) hf hspan rfl
    simp only [List.cons.injEq, and_true] at hbytes
    obtain ⟨rfl, rfl, rfl⟩ := hbytes
    exact ⟨v, congrArg Outcome.next (readFrame_of_frame hf hfields hu (by simp))⟩
  · obtain ⟨v, u, hfields, hread, hu⟩ := (reads_type hlen).modemStatus
    exact ⟨v, u.draws, hread, hu.draws, congrArg Outcome.next (readFrame_of_type hlen hcode hfields hu)⟩
  · obtain ⟨v, id', r, d, e, u, hfields, hread, hspan, hu⟩ := (reads_type hlen).txStatus
    exact ⟨v, id', r, d, e, u.draws, hread, hspan, hu.draws,
      congrArg Outcome.next (readFrame_of_type hlen hcode hfields hu)⟩

/-- Two addresses are those whose bytes stand on the wire. -/
theorem addresses_injective (msb : Bool) {a b : Address64} {g h : Half} {l r : List Byte}
    (heq : fieldBytes64 msb a.high a.low ++ fieldBytes16 msb g ++ l =
      fieldBytes64 msb b.high b.low ++ fieldBytes16 msb h ++ r) : a = b ∧ g = h ∧ l = r := by
  rw [List.append_assoc, List.append_assoc] at heq
  obtain ⟨h64, heq⟩ := List.append_inj heq (by rw [fieldBytes64_length, fieldBytes64_length])
  obtain ⟨h16, hrest⟩ := List.append_inj heq (by rw [fieldBytes16_length, fieldBytes16_length])
  exact ⟨fieldBytes64_injective msb h64, fieldBytes16_injective msb h16, hrest⟩

/-- Settles O57: on a whole frame the reads give its bytes, the bytes determine the addresses, and nothing
is recorded. -/
theorem readPayloadFrames : Obligations.ReadPayloadFrames := by
  intro s id c0 c1 status options addr64 addr16 payload addresses response received
  have hlength (a : Address64) (h : Half) : (addresses a h).length = 10 := by
    rw [List.length_append, fieldBytes64_length, fieldBytes16_length]
  refine ⟨fun hf => ?_, fun hf => ?_, fun hf => ?_, fun hlen hcode => ?_, fun hlen hcode => ?_,
    fun hlen hcode => ?_⟩
  · obtain ⟨id', d0, d1, v, p, u, hfields, hspan, hp, hu⟩ :=
      (reads_type (type_of_frame hf).1).atCommandResponse
    have hbytes : [id', d0, d1, v] = [id, c0, c1, status] :=
      readsSpan_of_frame (l := [0x88]) hf hspan rfl
    simp only [List.cons.injEq, and_true] at hbytes
    obtain ⟨rfl, rfl, rfl, rfl⟩ := hbytes
    obtain rfl := readsPayload_of_frame (l := [0x88, id', d0, d1, v]) hf hp
    exact congrArg Outcome.next (readFrame_of_frame hf hfields hu (by simp))
  · obtain ⟨id', d0, d1, v, a, h, p, u, hfields, hspan, hp, hu⟩ :=
      (reads_type (type_of_frame hf).1).remoteAtCommandResponse
    have hcut : s.inp.frame =
        some ((0x97 :: id :: (addresses addr64 addr16 ++ [c0, c1, status])) ++ payload) := by
      simpa using hf
    have hbytes : id' :: (addresses a h ++ [d0, d1, v]) =
        id :: (addresses addr64 addr16 ++ [c0, c1, status]) :=
      readsSpan_of_frame (l := [0x97]) hcut hspan (by simp [hlength])
    obtain ⟨rfl, htail⟩ := List.cons.inj hbytes
    obtain ⟨rfl, rfl, hrest⟩ := addresses_injective _ htail
    simp only [List.cons.injEq, and_true] at hrest
    obtain ⟨rfl, rfl, rfl⟩ := hrest
    obtain rfl : p = some payload := readsPayload_of_frame hcut (by simpa [hlength] using hp)
    exact congrArg Outcome.next (readFrame_of_frame hf hfields hu (by simp [hlength]; omega))
  · obtain ⟨o, a, h, p, u, hfields, hspan, hp, hu⟩ := (reads_type (type_of_frame hf).1).rxReceived
    have hcut : s.inp.frame =
        some ((0x90 :: (addresses addr64 addr16 ++ [options])) ++ payload) := by
      simpa using hf
    have hbytes : addresses a h ++ [o] = addresses addr64 addr16 ++ [options] :=
      readsSpan_of_frame (l := [0x90]) hcut hspan (by simp [hlength])
    obtain ⟨rfl, rfl, hrest⟩ := addresses_injective _ hbytes
    obtain rfl := List.head_eq_of_cons_eq hrest
    obtain rfl : p = some payload := readsPayload_of_frame hcut (by simpa [hlength] using hp)
    exact congrArg Outcome.next (readFrame_of_frame hf hfields hu (by simp [hlength]; omega))
  · obtain ⟨id', d0, d1, v, p, u, hfields, hspan, hp, hu⟩ := (reads_type hlen).atCommandResponse
    exact ⟨id', d0, d1, v, p, u.draws, hspan, hp, hu.draws,
      congrArg Outcome.next (readFrame_of_type hlen hcode hfields hu)⟩
  · obtain ⟨id', d0, d1, v, a, h, p, u, hfields, hspan, hp, hu⟩ :=
      (reads_type hlen).remoteAtCommandResponse
    exact ⟨id', d0, d1, v, a, h, p, u.draws, hspan, hp, hu.draws,
      congrArg Outcome.next (readFrame_of_type hlen hcode hfields hu)⟩
  · obtain ⟨o, a, h, p, u, hfields, hspan, hp, hu⟩ := (reads_type hlen).rxReceived
    exact ⟨o, a, h, p, u.draws, hspan, hp, hu.draws,
      congrArg Outcome.next (readFrame_of_type hlen hcode hfields hu)⟩

/-- The five field decoders and the types that they apply to. -/
def fieldDecoders : List (Instr × Byte) :=
  [(.ftAtCommandResponse .read, 0x88), (.ftModemStatus .read, 0x8A), (.ftTxStatus .read, 0x8B),
    (.ftRxReceived .read, 0x90), (.ftRemoteAtCommandResponse .read, 0x97)]

/-- Each of them reads a frame by a layout, and gives fields of its own type. -/
theorem fieldDecoder_exec {i : Instr} {code : Byte} (h : (i, code) ∈ fieldDecoders) :
    code ≠ 0x00 ∧ ∃ l, (∀ s, exec i s = .next (readFrame code l s)) ∧
      ∀ s t, Reads s 1 t → ∃ f u n,
        readFields code l t = (f, u) ∧ f.frameType = code ∧ Reads s n u := by
  simp only [fieldDecoders, List.mem_cons, List.not_mem_nil, or_false, Prod.mk.injEq] at h
  obtain ⟨rfl, rfl⟩ | ⟨rfl, rfl⟩ | ⟨rfl, rfl⟩ | ⟨rfl, rfl⟩ | ⟨rfl, rfl⟩ := h
  · refine ⟨by decide, _, fun _ => rfl, fun s t hs => ?_⟩
    obtain ⟨_, _, _, _, _, u, hfields, _, _, hu⟩ := hs.atCommandResponse
    exact ⟨_, u, _, hfields, rfl, hu⟩
  · refine ⟨by decide, _, fun _ => rfl, fun s t hs => ?_⟩
    obtain ⟨_, u, hfields, _, hu⟩ := hs.modemStatus
    exact ⟨_, u, _, hfields, rfl, hu⟩
  · refine ⟨by decide, _, fun _ => rfl, fun s t hs => ?_⟩
    obtain ⟨_, _, _, _, _, u, hfields, _, _, hu⟩ := hs.txStatus
    exact ⟨_, u, _, hfields, rfl, hu⟩
  · refine ⟨by decide, _, fun _ => rfl, fun s t hs => ?_⟩
    obtain ⟨_, _, _, _, u, hfields, _, _, hu⟩ := hs.rxReceived
    exact ⟨_, u, _, hfields, rfl, hu⟩
  · refine ⟨by decide, _, fun _ => rfl, fun s t hs => ?_⟩
    obtain ⟨_, _, _, _, _, _, _, u, hfields, _, _, hu⟩ := hs.remoteAtCommandResponse
    exact ⟨_, u, _, hfields, rfl, hu⟩

/-- Settles O58, by the read of the type byte. -/
theorem readOtherType : Obligations.ReadOtherType := by
  intro s i code t rest hmem
  obtain ⟨hne, l, hexec, -⟩ := fieldDecoder_exec hmem
  rw [hexec]
  refine ⟨fun hf htype => ?_, fun hempty => ?_⟩
  · obtain ⟨hlen, hpeek⟩ := type_of_frame hf
    rw [readFrame, pktGetOp_of_peek (frameLength_pos hlen) hpeek, if_neg htype]
    rfl
  · obtain ⟨hlt, _⟩ | ⟨_, hget⟩ := pktGetOp_cases .incoming 0 s
    · rw [pkt_incoming, hempty] at hlt
      exact absurd hlt nofun
    · rw [readFrame, hget, if_neg (Ne.symm hne)]
      rfl

theorem reads_errorCode {s t : State} {n : Nat} (h : Reads s n t) :
    t = { s with inp := { s.inp with errorCode := (s.inp.policed n).errorCode }, draws := t.draws } ∧
    ((s.inp.policed n).errorCode = s.inp.errorCode ∨
      (s.inp.policed n).errorCode = .frameLengthExceeded) := by
  refine ⟨h.state, ?_⟩
  rw [Packet.policed]
  split
  · exact .inr rfl
  · exact .inl rfl

/-- Settles O59: the read of the type, then either the other type or the fields of the layout. -/
theorem readFormsFrame : Obligations.ReadFormsFrame := by
  intro s i code hmem
  obtain ⟨-, l, hexec, hfields⟩ := fieldDecoder_exec hmem
  obtain ⟨v, t, hget, hread, ht⟩ := (reads_self (s := s) (Nat.zero_le _)).pktGetOp (Nat.le_refl 0)
  rw [hexec, readFrame, hget]
  by_cases hv : v = code
  · obtain ⟨f, u, n, hf, htype, hu⟩ := hfields s t ht
    obtain ⟨hstate, hcode⟩ := reads_errorCode hu
    rw [if_pos hv, hv, hf]
    exact ⟨answer (.fields f) u, _, rfl, congrArg (answer (.fields f)) hstate, hcode, hu.draws,
      .inl ⟨f, rfl, htype⟩⟩
  · obtain ⟨hstate, hcode⟩ := reads_errorCode ht
    rw [if_neg hv]
    exact ⟨answer (.otherType v) t, _, rfl, congrArg (answer (.otherType v)) hstate, hcode, ht.draws,
      .inr ⟨v, rfl, hv, hread⟩⟩

end Sys2Proof.Machine

/-! What an operation may change (R22, R27, R28, R30, R35, R36, R280, R288, R304).

`Keeps codes s t` is the frame that every operation meets: parameters fixed, packets and cursor within
their invariants, capacities not lowered, `TXQ` only appended to, and a packet's code as it was or one of
`codes`. It is transitive; each operation gets one lemma, and the rows and host operations are put
together from them. -/

namespace Sys2Proof.Machine

open Host (Outcome)

/-! ### Packets -/

/-- A packet with ceiling `maxLen` goes from `k` to `l`, recording one of `codes` at most. -/
structure Packet.Keeps (maxLen : Nat) (codes : ErrorCode → Prop) (k l : Packet) : Prop where
  cap : k.cap ≤ l.cap
  inv : k.inv maxLen → l.inv maxLen
  errorCode : l.errorCode = k.errorCode ∨ codes l.errorCode

section
variable {maxLen : Nat} {codes : ErrorCode → Prop} {k l m : Packet}

theorem Packet.Keeps.refl : k.Keeps maxLen codes k := ⟨le_rfl, id, .inl rfl⟩

theorem Packet.Keeps.trans (h : k.Keeps maxLen codes l) (h' : l.Keeps maxLen codes m) :
    k.Keeps maxLen codes m := by
  refine ⟨h.cap.trans h'.cap, h'.inv ∘ h.inv, ?_⟩
  obtain heq | hcode := h'.errorCode
  · rw [heq]
    exact h.errorCode
  · exact .inr hcode

theorem Packet.keeps_registers (f : Half) (c : Byte) {e : ErrorCode} (he : e = k.errorCode ∨ codes e) :
    k.Keeps maxLen codes { k with frameLength := f, checksum := c, errorCode := e } :=
  ⟨le_rfl, fun h => packet_inv_registers h f c e, he⟩

theorem Packet.keeps_stored {i : Nat} (v : Byte) (hi : i < maxLen) :
    k.Keeps maxLen codes (k.stored maxLen i v) :=
  ⟨stored_cap v hi, fun h => stored_inv v h hi, .inl rfl⟩

theorem Packet.keeps_grown {size : Nat} (hcap : k.cap ≤ size) (hmax : size ≤ maxLen) :
    k.Keeps maxLen codes { k with cap := size } :=
  ⟨hcap, fun ⟨hwf, hcells, _⟩ => ⟨hwf, fun c hc => (hcells c hc).trans_le hcap, hmax⟩, .inl rfl⟩

end

/-! ### States -/

/-- The frame of an operation that records codes of `codes` at most, and leaves `RXQ`. -/
structure Keeps (codes : PacketId → ErrorCode → Prop) (s t : State) : Prop where
  cfg : t.cfg = s.cfg
  inp : s.inp.Keeps s.cfg.mIn (codes .incoming) t.inp
  out : s.out.Keeps s.cfg.mOut (codes .outgoing) t.out
  cursor : s.cursorInv → t.cursorInv
  escaping : t.dec.escaping = true → s.dec.escaping = true ∨ s.cfg.escapedMode = true
  rxq : t.rxq = s.rxq
  txq : ∃ put, t.txq = s.txq ++ put
  sent : t.sent = s.sent

/-- The part of the state that `Keeps` reads. -/
def State.kept (s : State) : State :=
  { s with
    flight := none, call := .idle, hostq := [], turns := [], result := .none, lastFrameId := 0, draws := 0 }

section
variable {codes : PacketId → ErrorCode → Prop} {s t u : State}

theorem Keeps.refl : Keeps codes s s :=
  ⟨rfl, .refl, .refl, id, .inl, rfl, ⟨[], (List.append_nil _).symm⟩, rfl⟩

theorem Keeps.trans (h : Keeps codes s t) (h' : Keeps codes t u) : Keeps codes s u := by
  obtain ⟨put, hput⟩ := h.txq
  obtain ⟨put', hput'⟩ := h'.txq
  refine ⟨h'.cfg.trans h.cfg, h.inp.trans (h.cfg ▸ h'.inp), h.out.trans (h.cfg ▸ h'.out),
    h'.cursor ∘ h.cursor, fun he => ?_, h'.rxq.trans h.rxq,
    ⟨put ++ put', by rw [hput', hput, List.append_assoc]⟩, h'.sent.trans h.sent⟩
  obtain he | he := h'.escaping he
  · exact h.escaping he
  · exact .inr (h.cfg ▸ he)

theorem Keeps.mono {codes' : PacketId → ErrorCode → Prop} (h : Keeps codes s t)
    (hcodes : ∀ p c, codes p c → codes' p c) : Keeps codes' s t :=
  { h with
    inp := { h.inp with errorCode := h.inp.errorCode.imp_right (hcodes _ _) }
    out := { h.out with errorCode := h.out.errorCode.imp_right (hcodes _ _) } }

theorem Keeps.congr {s' t' : State} (h : Keeps codes s t) (hs : s'.kept = s.kept)
    (ht : t'.kept = t.kept) : Keeps codes s' t' := by
  obtain ⟨hcfg, hinp, hout, hdec, -, -, hrxq, htxq, hsent, -⟩ := State.mk.inj hs
  obtain ⟨hcfg', hinp', hout', hdec', -, -, hrxq', htxq', hsent', -⟩ := State.mk.inj ht
  refine ⟨hcfg'.trans (h.cfg.trans hcfg.symm), ?_, ?_, ?_, ?_, hrxq'.trans (h.rxq.trans hrxq.symm), ?_,
    hsent'.trans (h.sent.trans hsent.symm)⟩
  · rw [hinp, hinp', hcfg]; exact h.inp
  · rw [hout, hout', hcfg]; exact h.out
  · rw [State.cursorInv, State.cursorInv, hdec, hdec', hcfg, hcfg']; exact h.cursor
  · rw [hdec, hdec', hcfg]; exact h.escaping
  · rw [htxq, htxq']; exact h.txq

theorem Keeps.pkt (h : Keeps codes s t) (p : PacketId) :
    (s.pkt p).Keeps (s.maxLen p) (codes p) (t.pkt p) := by
  cases p
  · exact h.inp
  · exact h.out

theorem keeps_ite {c : Prop} [Decidable c] (h : c → Keeps codes s t) :
    Keeps codes s (if c then t else s) := by
  split
  · next hc => exact h hc
  · exact .refl

/-! ### The named operations -/

theorem keeps_setPkt {p : PacketId} {k : Packet} (h : (s.pkt p).Keeps (s.maxLen p) (codes p) k) :
    Keeps codes s (s.setPkt p k) := by
  cases p
  · exact { Keeps.refl with inp := h }
  · exact { Keeps.refl with out := h }

theorem keeps_record {p : PacketId} {c : ErrorCode} (hc : codes p c) : Keeps codes s (record p c s) :=
  keeps_setPkt (Packet.keeps_registers _ _ (.inr hc))

theorem keeps_packetReset {p : PacketId} (hc : codes p .noError) : Keeps codes s (packetReset p s) :=
  keeps_setPkt (Packet.keeps_registers 0 0 (.inr hc))

/-- A cursor that moves forward or stays within its bound; an escape is pending on it only where it was
pending, or in escaped mode past offset 0. -/
theorem keeps_cursor {c : Cursor}
    (hidx : c.idx ≤ s.dec.idx ∨ c.idx ≤ max 3 (s.cfg.mIn + 1))
    (hesc : c.escaping = true →
      (s.dec.escaping = true ∧ s.dec.idx ≤ c.idx) ∨ (s.cfg.escapedMode = true ∧ 1 ≤ c.idx)) :
    Keeps codes s { s with dec := c } := by
  refine { Keeps.refl with
    cursor := fun ⟨hpending, hbound⟩ => ⟨fun h => ?_, hidx.elim (·.trans hbound) id⟩
    escaping := fun h => (hesc h).imp And.left And.left }
  obtain ⟨he, hle⟩ | hmode := hesc h
  · obtain ⟨hmode, hpos⟩ := hpending he
    exact ⟨hmode, hpos.trans hle⟩
  · exact hmode

theorem keeps_setIdx {n : Nat} (hle : s.dec.idx ≤ n) (hmax : n ≤ max 3 (s.cfg.mIn + 1)) :
    Keeps codes s (s.setIdx n) :=
  keeps_cursor (.inr hmax) fun he => .inl ⟨he, hle⟩

theorem keeps_restartAt {idx : Nat} (hidx : idx ≤ 3) (hc : codes .incoming .noError) :
    Keeps codes s (restartAt idx s) :=
  (keeps_packetReset hc).trans (keeps_cursor (.inr (hidx.trans (Nat.le_max_left ..))) nofun)

theorem keeps_decoderError {c : ErrorCode} (hc : codes .incoming c) :
    Keeps codes s (decoderError c s) :=
  (keeps_record hc).congr rfl rfl

theorem keeps_bufEnsureOp (p : PacketId) (size : Nat) : Keeps codes s (bufEnsureOp p size s) := by
  obtain ⟨hcap, hmax, h⟩ | ⟨_, h⟩ := bufEnsureOp_cases p size s <;> rw [h]
  · exact keeps_setPkt (Packet.keeps_grown hcap.le hmax)
  · exact .refl

theorem keeps_bufGetOp (p : PacketId) (i : Nat) : Keeps codes s (bufGetOp p i s).2 := by
  obtain ⟨d, h⟩ := bufGetOp_frame p i s
  exact Keeps.refl.congr rfl (by rw [h]; rfl)

theorem keeps_calcChecksumOp (p : PacketId) : Keeps codes s (calcChecksumOp p s).2 := by
  obtain ⟨d, h⟩ := calcChecksumOp_frame p s
  exact Keeps.refl.congr rfl (by rw [h]; rfl)

theorem keeps_pktGetOp {p : PacketId} {i : Nat}
    (hc : (s.pkt p).frameLength.toNat ≤ i → codes p .frameLengthExceeded) :
    Keeps codes s (pktGetOp p i s).2 := by
  obtain ⟨_, h⟩ | ⟨hle, h⟩ := pktGetOp_cases p i s <;> rw [h]
  · exact keeps_bufGetOp p i
  · exact keeps_record (hc hle)

theorem keeps_pktSetOp {p : PacketId} {i : Nat} (v : Byte)
    (hc : s.maxLen p ≤ i → codes p .maxFrameLengthExceeded) : Keeps codes s (pktSetOp p i v s) := by
  have hstored {len : Half} (hlt : i < s.maxLen p) : Keeps codes s
      (s.setPkt p { (s.pkt p).stored (s.maxLen p) i v with frameLength := len }) :=
    keeps_setPkt ((Packet.keeps_stored v hlt).trans (Packet.keeps_registers len _ (.inl rfl)))
  obtain ⟨hle, h⟩ | ⟨hlt, _, h⟩ | ⟨hlt, _, h⟩ := pktSetOp_cases p i v s <;> rw [h]
  · exact keeps_record (hc hle)
  · exact hstored hlt
  · exact (hstored hlt).congr rfl rfl

theorem keeps_pktSetEach {p : PacketId} (hc : codes p .maxFrameLengthExceeded) (bytes : List Byte)
    (i : Nat) : Keeps codes s (pktSetEach p i bytes s) := by
  induction bytes generalizing i s with
  | nil => exact .refl
  | cons b rest ih => exact (keeps_pktSetOp b fun _ => hc).trans (ih (i + 1))

theorem keeps_pktSetnOp {p : PacketId} (hc : codes p .maxFrameLengthExceeded) (first : Nat)
    (bytes : List Byte) (n : Nat) : Keeps codes s (pktSetnOp p first bytes n s) := by
  obtain ⟨_, h⟩ | ⟨_, h⟩ := pktSetnOp_cases p first bytes n s <;> rw [h]
  · exact keeps_record hc
  · exact keeps_pktSetEach hc ..

theorem keeps_setFields (hc : codes .outgoing .maxFrameLengthExceeded) (l : List (Nat × Byte)) :
    Keeps codes s (setFields l s) := by
  induction l generalizing s with
  | nil => exact .refl
  | cons e l ih => exact (keeps_pktSetOp e.2 fun _ => hc).trans ih

theorem keeps_prepareFrame (hno : codes .outgoing .noError)
    (hc : codes .outgoing .maxFrameLengthExceeded) (n : Nat) (payload : List Byte)
    (fields : List (Nat × Byte)) : Keeps codes s (prepareFrame n payload fields s) := by
  have hwithout : Keeps codes s (withoutId n payload fields s) :=
    (keeps_packetReset hno).trans ((keeps_pktSetnOp hc ..).trans (keeps_setFields hc fields))
  rw [prepareFrame_eq]
  exact (hwithout.congr rfl (t' := { withoutId n payload fields s with lastFrameId := s.idAfter })
    rfl).trans (keeps_pktSetOp _ fun _ => hc)

theorem keeps_writeByte (b : Byte) : Keeps codes s (writeByte b s) :=
  { Keeps.refl with txq := ⟨[b], rfl⟩ }

theorem keeps_encPut (b : Byte) : Keeps codes s (encPut b s) := by
  rw [encPut_eq]
  exact { Keeps.refl with txq := ⟨_, rfl⟩ }

/-! ### The decoder's rows and the loop body of R170 -/

theorem keeps_addToSum (b : Byte) : Keeps codes s (addToSum b s) :=
  keeps_ite fun _ => keeps_cursor (.inl le_rfl) fun he => .inl ⟨he, le_rfl⟩

theorem keeps_setInLength (h : Half) : Keeps codes s (s.setInLength h) :=
  keeps_setPkt (p := .incoming) (Packet.keeps_registers h _ (.inl rfl))

theorem keeps_length {n : Nat} (h : Half) (hle : s.dec.idx ≤ n) (hn : n ≤ 3) :
    Keeps codes s ((s.setInLength h).setIdx n) :=
  (keeps_setInLength h).trans (keeps_setIdx hle (hn.trans (Nat.le_max_left ..)))

theorem keeps_completed (b : Byte) (hc : codes .incoming .noError) :
    Keeps codes s (stopCall { s with
      dec := { s.dec with complete := true }
      inp := { s.inp with checksum := b, errorCode := .noError } }) := by
  have hcursor : Keeps codes s { s with dec := { s.dec with complete := true } } :=
    keeps_cursor (.inl le_rfl) fun he => .inl ⟨he, le_rfl⟩
  have hpacket : Keeps codes { s with dec := { s.dec with complete := true } }
      (State.setPkt { s with dec := { s.dec with complete := true } } .incoming
        { s.inp with checksum := b, errorCode := .noError }) :=
    keeps_setPkt (Packet.keeps_registers _ b (.inr hc))
  exact (hcursor.trans hpacket).congr rfl rfl

theorem keeps_store (b : Byte) (hidx : 3 ≤ s.dec.idx) (hmax : s.dec.idx ≤ s.cfg.mIn) :
    Keeps codes s ((pktSetOp .incoming (s.dec.idx - 3) b s).setIdx (s.dec.idx + 1)) := by
  have hframe := pktSetOp_packetOnly .incoming (s.dec.idx - 3) b s
  refine (keeps_pktSetOp b fun hle => ?_).trans (keeps_setIdx ?_ ?_)
  · rw [maxLen_incoming] at hle
    omega
  · rw [hframe]
    exact Nat.le_succ _
  · rw [hframe]
    show s.dec.idx + 1 ≤ max 3 (s.cfg.mIn + 1)
    omega

/-- The codes that a byte step can leave on `IN`. -/
def byteStepCodes (mode : Bool) (p : PacketId) (c : ErrorCode) : Prop :=
  p = .incoming ∧ (c = .unexpectedPacketStart → mode = true) ∧
    c ∈ [.noError, .unexpectedPacketStart, .packetIncomplete, .maxFrameLengthExceeded, .checksumFailure]

theorem keeps_dispatchByte {mode : Bool} (b : Byte) :
    Keeps (byteStepCodes mode) s (dispatchByte b s) := by
  obtain ⟨h0, rfl⟩ | ⟨h0, hb⟩ | h1 | h2 | ⟨h3, hover⟩ | ⟨h3, hmax, hck, hsum⟩ |
    ⟨h3, hmax, hck, hsum⟩ | ⟨h3, hmax, hck⟩ := dispatch_cases b s
  · rw [dispatchByte_start h0]
    exact keeps_setIdx (by omega) (by omega)
  · rw [dispatchByte_nostart h0 hb]
    exact keeps_decoderError ⟨rfl, nofun, by simp⟩
  · rw [dispatchByte_lenMsb h1]
    exact keeps_length _ (by omega) (by omega)
  · rw [dispatchByte_lenLsb h2]
    exact keeps_length _ (by omega) (by omega)
  · rw [dispatchByte_overlen h3 hover]
    exact keeps_decoderError ⟨rfl, nofun, by simp⟩
  · rw [dispatchByte_ckOk h3 hmax hck hsum]
    exact keeps_completed b ⟨rfl, nofun, by simp⟩
  · rw [dispatchByte_ckFail h3 hmax hck hsum]
    exact keeps_decoderError ⟨rfl, nofun, by simp⟩
  · rw [dispatchByte_store h3 hmax hck]
    exact keeps_store b h3 hmax

theorem keeps_afterEscapes {mode : Bool} (b : Byte) :
    Keeps (byteStepCodes mode) s (afterEscapes b s) :=
  (keeps_addToSum b).trans (keeps_dispatchByte b)

theorem keeps_withEscape (h : s.escapesHere = true) : Keeps codes s s.withEscape := by
  obtain ⟨hmode, _, hidx⟩ := escapesHere_iff.mp h
  exact keeps_cursor (.inl le_rfl) fun _ => .inr ⟨hmode, hidx⟩

/-- `t` follows `s`, with at most one byte taken from the head of `RXQ`. -/
def Follows (codes : PacketId → ErrorCode → Prop) (s t : State) : Prop :=
  ∃ q, (s.rxq = q ∨ ∃ x, s.rxq = x :: q) ∧ Keeps codes (s.withRxq q) t

theorem Keeps.follows (h : Keeps codes s t) : Follows codes s t := ⟨s.rxq, .inl rfl, h⟩

theorem follows_referenceByte (b : Byte) :
    Follows (byteStepCodes s.cfg.escapedMode) s (referenceByte b s) := by
  obtain hraw | ⟨hmode, hesc⟩ | ⟨hhere, rfl⟩ | ⟨hhere, rfl⟩ := passesRaw_or b s
  · rw [referenceByte_raw hraw]
    exact (keeps_afterEscapes b).follows
  · rw [referenceByte_pending hmode hesc]
    have hcleared : Keeps (byteStepCodes s.cfg.escapedMode) s
        { s with dec := { s.dec with escaping := false } } := keeps_cursor (.inl le_rfl) nofun
    exact (hcleared.trans (keeps_afterEscapes _)).follows
  · cases hq : s.rxq with
    | nil =>
      rw [referenceByte_suspend hhere hq]
      exact ((keeps_withEscape hhere).congr (t' := stopCall s.withEscape) rfl rfl).follows
    | cons x q =>
      rw [referenceByte_pair hhere hq]
      exact ⟨q, .inr ⟨x, hq⟩, keeps_afterEscapes (s := s.withRxq q) _⟩
  · rw [referenceByte_start hhere]
    obtain ⟨hmode, _⟩ := escapesHere_iff.mp hhere
    exact (keeps_decoderError ⟨rfl, fun _ => hmode, by simp⟩).follows

end

end Sys2Proof.Machine

/-! O11, O12, O14, O15 and O16: what an instruction and a step change (R22, R27, R28, R30, R35, R36, R188,
R280, R288, R304). -/

namespace Sys2Proof.Machine

open Host (Outcome)

/-! ### The codes of an instruction (R304) -/

/-- The codes that an instruction can leave on a packet, by its row of the matrix and what it clears. -/
def Instr.codes (i : Instr) (mode : Bool) (p : PacketId) (c : ErrorCode) : Prop :=
  (c ∈ i.records p ∨ c = .noError ∧ i.clears p = true) ∧ (c = .unexpectedPacketStart → mode = true)

theorem codes_of_records {i : Instr} {mode : Bool} {p : PacketId} {c : ErrorCode}
    (h : i.records p = [c]) (hc : c ≠ .unexpectedPacketStart) : Instr.codes i mode p c :=
  ⟨.inl (by rw [h]; exact List.mem_singleton_self c), fun h => absurd h hc⟩

theorem codes_of_clears {i : Instr} {mode : Bool} {p : PacketId} (h : i.clears p = true) :
    Instr.codes i mode p .noError :=
  ⟨.inr ⟨rfl, h⟩, nofun⟩

/-- The row of the wire units is that of the byte step. -/
theorem wireUnit_records {i : Instr} (hi : i.isWireUnit = true) :
    i.records .incoming =
      [.unexpectedPacketStart, .packetIncomplete, .maxFrameLengthExceeded, .checksumFailure] ∧
    i.clears .incoming = true := by
  cases i with
  | ftAtCommand f | ftTransmitRequest f | ftRemoteAtCommand f | ftAtCommandResponse f
  | ftModemStatus f | ftTxStatus f | ftRxReceived f | ftRemoteAtCommandResponse f =>
    cases f with
    | wire => exact ⟨rfl, rfl⟩
    | _ => cases hi
  | start | escape | xon | xoff | data | escStart | escEscape | escXon | escXoff | escGeneric
  | ftAtCommandQueued | ftExplicitAddressing | ftExplicitRx | ftIoRx | ftNodeId => exact ⟨rfl, rfl⟩
  | _ => cases hi

theorem codes_of_byteStepCodes {i : Instr} (hi : i.isWireUnit = true) {mode : Bool} {p : PacketId}
    {c : ErrorCode} (h : byteStepCodes mode p c) : Instr.codes i mode p c := by
  obtain ⟨rfl, hmode, hc⟩ := h
  obtain ⟨hrecords, hclears⟩ := wireUnit_records hi
  obtain hno | hrec := List.mem_cons.mp hc
  · exact ⟨.inr ⟨hno, hclears⟩, hmode⟩
  · exact ⟨.inl (hrecords ▸ hrec), hmode⟩

/-! ### The instructions -/

section
variable {s t : State} {i : Instr}

/-- A unit of the wire stream keeps the frame, up to the bytes of `RXQ`. -/
theorem exec_wireUnit_keeps (hi : i.isWireUnit = true) (h : exec i s = .next t) :
    ∃ q, Keeps (Instr.codes i s.cfg.escapedMode) (s.withRxq q) t := by
  obtain ⟨b, hexec⟩ | ⟨x, hexec⟩ := exec_wireUnit hi <;> rw [hexec] at h <;>
    obtain rfl := Outcome.next.inj h
  · rw [byteStep_eq_referenceByte]
    obtain ⟨q, _, hkeeps⟩ := follows_referenceByte (s := landed s) b
    exact ⟨q, (hkeeps.mono fun _ _ => codes_of_byteStepCodes hi).congr rfl rfl⟩
  · rw [escapePair, byteStep_eq_referenceByte]
    obtain ⟨q, _, hkeeps⟩ := follows_referenceByte (s := landed (s.withRxq (x :: s.rxq))) escapeByte
    exact ⟨q, (hkeeps.mono fun _ _ => codes_of_byteStepCodes hi).congr rfl rfl⟩

/-- A row of the byte step keeps the frame; only `DEC.ESC.INLINE` takes a byte. -/
theorem byteRow_keeps (hi : Instr.isByteRow i = true) (hinline : i ≠ .decEscInline) :
    Keeps (Instr.codes i s.cfg.escapedMode) s (applyRow i s) := by
  cases i with
  | decEscInline => exact absurd rfl hinline
  | decUnesc r =>
    refine keeps_ite fun _ => ?_
    exact (keeps_cursor (c := { s.dec with escaping := false }) (.inl le_rfl) nofun).congr rfl rfl
  | decEscSuspend =>
    refine keeps_ite fun ⟨hhere, _⟩ => ?_
    exact (keeps_withEscape hhere).congr rfl rfl
  | decErrStart =>
    exact keeps_ite fun ⟨hmode, _⟩ =>
      keeps_decoderError ⟨.inl (List.mem_singleton_self _), fun _ => hmode⟩
  | decCsum b =>
    refine keeps_ite fun h3 => ?_
    exact (keeps_cursor (c := { s.dec with csum := s.dec.csum + b }) (.inl le_rfl)
      fun he => .inl ⟨he, le_rfl⟩).congr rfl rfl
  | decSof =>
    refine keeps_ite fun h0 => ?_
    exact (keeps_setIdx (n := 1) (by omega) (by omega)).congr rfl rfl
  | decErrNostart b => exact keeps_ite fun _ => keeps_decoderError (codes_of_records rfl nofun)
  | decLenMsb b =>
    refine keeps_ite fun h1 => ?_
    exact (keeps_length (n := 2) (withMsb b s.inp.frameLength) (by omega) (by omega)).congr rfl rfl
  | decLenLsb b =>
    refine keeps_ite fun h2 => ?_
    exact (keeps_length (n := 3) (withLsb b s.inp.frameLength) (by omega) (by omega)).congr rfl rfl
  | decErrOverlen b => exact keeps_ite fun _ => keeps_decoderError (codes_of_records rfl nofun)
  | decCkOk b => exact keeps_ite fun _ => keeps_completed b (codes_of_clears rfl)
  | decCkFail b => exact keeps_ite fun _ => keeps_decoderError (codes_of_records rfl nofun)
  | decStore b =>
    refine keeps_ite fun ⟨h3, hmax, _⟩ => ?_
    exact (keeps_store b h3 hmax).congr rfl rfl
  | _ => cases hi

theorem decEscInline_follows {codes : PacketId → ErrorCode → Prop} :
    Follows codes s (decEscInline s) := by
  unfold decEscInline
  split
  · next x rest _ hq => exact ⟨rest, .inr ⟨x, hq⟩, Keeps.refl.congr rfl rfl⟩
  · exact Keeps.refl.follows

theorem decFetch_follows {codes : PacketId → ErrorCode → Prop} : Follows codes s (decFetch s) := by
  unfold decFetch
  split
  · exact Keeps.follows (Keeps.refl.congr (s := s) (t := s) rfl rfl)
  · next b rest hq => exact ⟨rest, .inr ⟨b, hq⟩, Keeps.refl.congr rfl rfl⟩

theorem byteRow_follows (hi : Instr.isByteRow i = true) :
    Follows (Instr.codes i s.cfg.escapedMode) s (applyRow i s) := by
  by_cases hinline : i = .decEscInline
  · rw [hinline]
    exact decEscInline_follows
  · exact (byteRow_keeps hi hinline).follows

/-! The rows of the encoder record nothing (R304). -/

/-- The form of the encoder's rows: no effect outside one stage of a running `ENC.SERIALIZE` (log 7). -/
theorem keeps_serializing {codes : PacketId → ErrorCode → Prop} {P : EncTemps → Prop}
    [∀ e, Decidable (P e)] {f : EncTemps → State} (h : ∀ e, P e → Keeps codes s (f e)) :
    Keeps codes s (match s.call with
      | .serialize e => if P e then f e else s
      | _ => s) := by
  cases s.call with
  | serialize e => exact keeps_ite (h e)
  | _ => exact .refl

theorem encData_keeps {codes : PacketId → ErrorCode → Prop} : Keeps codes s (encData s) :=
  keeps_serializing fun _ ⟨_, hlt⟩ =>
    ((keeps_pktGetOp (p := .outgoing) fun hle => absurd hlt (Nat.not_lt.mpr hle)).trans
      (keeps_encPut _)).congr rfl rfl

theorem encPutEsc_keeps {codes : PacketId → ErrorCode → Prop} (e : Byte) :
    Keeps codes s (encPutEsc e s) :=
  keeps_ite fun _ => (keeps_writeByte escapeByte).trans (keeps_writeByte e)

theorem encPutRaw_keeps {codes : PacketId → ErrorCode → Prop} (b : Byte) :
    Keeps codes s (encPutRaw b s) := by
  unfold encPutRaw
  split
  · exact .refl
  · exact keeps_writeByte b

/-- A field decoder keeps the frame, and records code 5 at most (O59). -/
theorem fieldDecoder_keeps {codes : PacketId → ErrorCode → Prop}
    (hi : i ∈ fieldDecoders.map Prod.fst) (hc : codes .incoming .frameLengthExceeded)
    (h : exec i s = .next t) : Keeps codes s t := by
  obtain ⟨⟨_, code⟩, hmem, rfl⟩ := List.mem_map.mp hi
  obtain ⟨t', c, hexec, hstate, hcode, _⟩ := readFormsFrame s _ code hmem
  obtain rfl := Outcome.next.inj (h.symm.trans hexec)
  have hrecorded : Keeps codes s (s.setPkt .incoming { s.inp with errorCode := c }) :=
    keeps_setPkt (Packet.keeps_registers _ _ (hcode.imp_right fun heq : c = .frameLengthExceeded => heq ▸ hc))
  exact hrecorded.congr rfl (by rw [hstate]; rfl)

theorem keeps_answer {codes : PacketId → ErrorCode → Prop} {u : State} {r : HostResult}
    (h : Keeps codes s u) (ht : .next (answer r u) = (.next t : Outcome State Fault Refusal)) :
    Keeps codes s t := by
  obtain rfl := Outcome.next.inj ht
  exact h.congr rfl rfl

theorem execBufSet_keeps {codes : PacketId → ErrorCode → Prop} {p : PacketId} {j : Nat} {v : Byte}
    (h : exec (.bufSet p j v) s = .next t) : Keeps codes s t := by
  by_cases hj : j < s.maxLen p
  · rw [exec_bufSet_of_lt v hj] at h
    exact keeps_answer (keeps_setPkt (Packet.keeps_stored v hj)) h
  · rw [exec_bufSet_of_le v (Nat.le_of_not_lt hj)] at h
    exact keeps_answer .refl h

theorem execPktSetn_keeps {codes : PacketId → ErrorCode → Prop} {p : PacketId} {first n : Nat}
    {bytes : List Byte} (hc : codes p .maxFrameLengthExceeded)
    (h : exec (.pktSetn p first bytes n) s = .next t) : Keeps codes s t := by
  change execPktSetn p first bytes n s = .next t at h
  unfold execPktSetn at h
  split at h
  · exact keeps_answer (keeps_pktSetnOp hc ..) h
  · cases h

/-- A host operation keeps the frame and leaves `RXQ`. -/
theorem hostOp_keeps (hi : i.isHostOp = true) (h : exec i s = .next t) :
    Keeps (Instr.codes i s.cfg.escapedMode) s t := by
  cases i with
  | bufEnsure p size => exact keeps_answer (keeps_bufEnsureOp p size) h
  | bufGet p j => exact keeps_answer (keeps_bufGetOp p j) h
  | bufSet p j v => exact execBufSet_keeps h
  | pktGet p j =>
    exact keeps_answer (keeps_pktGetOp fun _ => codes_of_records (if_pos rfl) nofun) h
  | pktSet p j v =>
    exact keeps_answer (keeps_pktSetOp v fun _ => codes_of_records (if_pos rfl) nofun) h
  | pktSetn p first bytes n => exact execPktSetn_keeps (codes_of_records (if_pos rfl) nofun) h
  | pktSetLenMsb p v | pktSetLenLsb p v =>
    exact keeps_answer (keeps_setPkt (Packet.keeps_registers _ _ (.inl rfl))) h
  | pktCalcChecksum p => exact keeps_answer (keeps_calcChecksumOp p) h
  | pktReset p => exact keeps_answer (keeps_packetReset (codes_of_clears (beq_self_eq_true p))) h
  | pktLenMsb | pktLenLsb | pktIsError | pktErrorCode | pktFrameLength | pktChecksum | decIsComplete =>
    exact keeps_answer .refl h
  | decPoll | encSerialize =>
    obtain rfl := Outcome.next.inj h
    exact Keeps.refl.congr (s := s) (t := s) rfl rfl
  | decReset => exact keeps_answer (keeps_restartAt (Nat.zero_le 3) (codes_of_clears rfl)) h
  | ftAtCommand f | ftTransmitRequest f | ftRemoteAtCommand f =>
    cases f with
    | wire => cases hi
    | prepare a =>
      exact keeps_answer
        (keeps_prepareFrame (codes_of_clears rfl) (codes_of_records rfl nofun) ..) h
  | ftAtCommandResponse f | ftModemStatus f | ftTxStatus f | ftRxReceived f
  | ftRemoteAtCommandResponse f =>
    cases f with
    | wire => cases hi
    | read =>
      exact fieldDecoder_keeps (by simp [fieldDecoders]) (codes_of_records rfl nofun) h
  | _ => cases hi

theorem decEntryContinue_keeps {codes : PacketId → ErrorCode → Prop} :
    Keeps codes s (decEntryContinue s) := by
  unfold decEntryContinue
  split
  · exact .refl
  · exact Keeps.refl.congr (s := s) (t := s) rfl rfl

/-- A row of the encoder keeps the frame and records nothing. -/
theorem encoderRows_keep {codes : PacketId → ErrorCode → Prop}
    (hi : i ∈ [.encStart, .encLenMsb, .encLenLsb, .encData, .encCsum, .encFlush])
    (h : exec i s = .next t) : Keeps codes s t := by
  simp only [List.mem_cons, List.not_mem_nil, or_false] at hi
  obtain rfl | rfl | rfl | rfl | rfl | rfl := hi <;> obtain rfl := Outcome.next.inj h
  · exact keeps_serializing fun _ _ => (keeps_writeByte _).congr rfl rfl
  · exact keeps_serializing fun _ _ => (keeps_encPut _).congr rfl rfl
  · exact keeps_serializing fun _ _ => (keeps_encPut _).congr rfl rfl
  · exact encData_keeps
  · exact keeps_serializing fun _ _ => (keeps_encPut _).congr rfl rfl
  · exact keeps_serializing fun _ _ => Keeps.refl.congr (s := s) (t := s) rfl rfl

/-- An instruction that is no unit of the wire stream keeps the frame and takes at most one byte. -/
theorem exec_follows (hi : i.isWireUnit = false) (h : exec i s = .next t) :
    Follows (Instr.codes i s.cfg.escapedMode) s t := by
  by_cases hhost : i.isHostOp = true
  · exact (hostOp_keeps hhost h).follows
  by_cases hrow : Instr.isByteRow i = true
  · rw [exec_byteRow i s hrow] at h
    obtain rfl := Outcome.next.inj h
    exact byteRow_follows hrow
  cases i with
  | decFetch =>
    obtain rfl := Outcome.next.inj h
    exact decFetch_follows
  | decEntryRestart =>
    obtain rfl := Outcome.next.inj h
    refine Keeps.follows (keeps_ite fun _ => ?_)
    exact (keeps_restartAt (Nat.zero_le 3) (codes_of_clears rfl)).congr rfl rfl
  | decEntryResume1 =>
    obtain rfl := Outcome.next.inj h
    refine Keeps.follows (keeps_ite fun _ => ?_)
    exact (keeps_restartAt (by omega) (codes_of_clears rfl)).congr rfl rfl
  | decEntryContinue =>
    obtain rfl := Outcome.next.inj h
    exact decEntryContinue_keeps.follows
  | encPutRaw b =>
    obtain rfl := Outcome.next.inj h
    exact (encPutRaw_keeps b).follows
  | encPutEsc e =>
    obtain rfl := Outcome.next.inj h
    exact (encPutEsc_keeps e).follows
  | encStart | encLenMsb | encLenLsb | encData | encCsum | encFlush =>
    exact (encoderRows_keep (by simp) h).follows
  | ftAtCommand f | ftTransmitRequest f | ftRemoteAtCommand f | ftAtCommandResponse f
  | ftModemStatus f | ftTxStatus f | ftRxReceived f | ftRemoteAtCommandResponse f =>
    cases f with
    | wire => cases hi
    | _ => exact absurd rfl hhost
  | start | escape | xon | xoff | data | escStart | escEscape | escXon | escXoff | escGeneric
  | ftAtCommandQueued | ftExplicitAddressing | ftExplicitRx | ftIoRx | ftNodeId => cases hi
  | decUnesc | decEscInline | decEscSuspend | decErrStart | decCsum | decSof | decErrNostart
  | decLenMsb | decLenLsb | decErrOverlen | decCkOk | decCkFail | decStore => exact absurd rfl hrow
  | _ => exact absurd rfl hhost

/-- Every instruction keeps the frame, up to the bytes of `RXQ`. -/
theorem exec_keeps (h : exec i s = .next t) :
    ∃ q, Keeps (Instr.codes i s.cfg.escapedMode) (s.withRxq q) t := by
  cases hi : i.isWireUnit with
  | true => exact exec_wireUnit_keeps hi h
  | false =>
    obtain ⟨q, _, hkeeps⟩ := exec_follows hi h
    exact ⟨q, hkeeps⟩

/-! ### The matrix of operations and codes (R304) -/

theorem mem_singleton_if {p q : PacketId} {c d : ErrorCode} (h : c ∈ if p = q then [d] else []) :
    c = d := by
  split at h
  · exact List.mem_singleton.mp h
  · cases h

/-- A host operation records code 4 or code 5 at most. -/
theorem mem_records_of_hostOp {p : PacketId} {c : ErrorCode} (hi : i.isHostOp = true)
    (h : c ∈ i.records p) : c = .maxFrameLengthExceeded ∨ c = .frameLengthExceeded := by
  cases i with
  | pktGet => exact .inr (mem_singleton_if h)
  | pktSet | pktSetn => exact .inl (mem_singleton_if h)
  | ftAtCommand f | ftTransmitRequest f | ftRemoteAtCommand f =>
    cases f with
    | wire => cases hi
    | prepare =>
      cases p with
      | incoming => cases h
      | outgoing => exact .inl (List.mem_singleton.mp h)
  | ftAtCommandResponse f | ftModemStatus f | ftTxStatus f | ftRxReceived f
  | ftRemoteAtCommandResponse f =>
    cases f with
    | wire => cases hi
    | read =>
      cases p with
      | incoming => exact .inr (List.mem_singleton.mp h)
      | outgoing => cases h
  | bufEnsure | bufGet | bufSet | pktLenMsb | pktLenLsb | pktSetLenMsb | pktSetLenLsb
  | pktCalcChecksum | pktReset | pktIsError | pktErrorCode | pktFrameLength | pktChecksum | decPoll
  | decIsComplete | decReset | encSerialize => cases p <;> cases h
  | _ => cases hi

/-- The other instructions record and clear on `IN` alone, and record codes 2, 3, 4 and 6 at most. -/
theorem records_of_not_hostOp {c : ErrorCode} (hi : i.isHostOp = false) :
    i.records .outgoing = [] ∧ i.clears .outgoing = false ∧
      (c ∈ i.records .incoming →
        c ∈ [.unexpectedPacketStart, .packetIncomplete, .maxFrameLengthExceeded, .checksumFailure]) := by
  cases i with
  | start | escape | xon | xoff | data | escStart | escEscape | escXon | escXoff | escGeneric
  | ftAtCommandQueued | ftExplicitAddressing | ftExplicitRx | ftIoRx | ftNodeId => exact ⟨rfl, rfl, id⟩
  | ftAtCommand f | ftTransmitRequest f | ftRemoteAtCommand f | ftAtCommandResponse f
  | ftModemStatus f | ftTxStatus f | ftRxReceived f | ftRemoteAtCommandResponse f =>
    cases f with
    | wire => exact ⟨rfl, rfl, id⟩
    | _ => cases hi
  | decErrStart | decErrNostart | decErrOverlen | decCkFail =>
    refine ⟨rfl, rfl, fun h => ?_⟩
    rw [List.mem_singleton.mp h]
    simp
  | decEntryRestart | decEntryResume1 | decEntryContinue | decFetch | decUnesc | decEscInline
  | decEscSuspend | decCsum | decSof | decLenMsb | decLenLsb | decCkOk | decStore | encStart
  | encPutRaw | encPutEsc | encLenMsb | encLenLsb | encData | encCsum | encFlush =>
    exact ⟨rfl, rfl, fun h => by cases h⟩
  | _ => cases hi

/-- What an instruction can leave as a code: a host operation 0, 4 or 5, any other 0, 2, 3, 4 or 6 on `IN`,
code 2 only in escaped mode. -/
theorem codes_cases {mode : Bool} {p : PacketId} {c : ErrorCode} (h : Instr.codes i mode p c) :
    (c = .unexpectedPacketStart → mode = true) ∧
    ((i.isHostOp = true ∧ c ∈ [.noError, .maxFrameLengthExceeded, .frameLengthExceeded]) ∨
      (i.isHostOp = false ∧ p = .incoming ∧ c ∈ [.noError, .unexpectedPacketStart, .packetIncomplete,
        .maxFrameLengthExceeded, .checksumFailure])) := by
  obtain ⟨hrec, hmode⟩ := h
  refine ⟨hmode, ?_⟩
  cases hi : i.isHostOp with
  | true =>
    refine .inl ⟨rfl, ?_⟩
    obtain hrec | ⟨rfl, -⟩ := hrec
    · obtain rfl | rfl := mem_records_of_hostOp hi hrec <;> simp
    · exact List.mem_cons_self
  | false =>
    obtain ⟨hout, hclears, hin⟩ := records_of_not_hostOp (c := c) hi
    cases p with
    | incoming =>
      refine .inr ⟨rfl, rfl, ?_⟩
      obtain hrec | ⟨rfl, -⟩ := hrec
      · exact List.mem_cons_of_mem _ (hin hrec)
      · exact List.mem_cons_self
    | outgoing =>
      rw [hout, hclears] at hrec
      obtain hrec | ⟨-, hrec⟩ := hrec <;> cases hrec

end

/-- Settles O15: an instruction leaves a code as it was, or leaves one of its row of the matrix. -/
theorem errorCodeMatrix : Obligations.ErrorCodeMatrix := by
  intro i s t h
  obtain ⟨q, hkeeps⟩ := exec_keeps h
  have hin : t.inp.errorCode = s.inp.errorCode ∨
      Instr.codes i s.cfg.escapedMode .incoming t.inp.errorCode := hkeeps.inp.errorCode
  have hout : t.out.errorCode = s.out.errorCode ∨
      Instr.codes i s.cfg.escapedMode .outgoing t.out.errorCode := hkeeps.out.errorCode
  refine ⟨fun p => ?_, fun hc => ?_, fun hc => ?_, fun hi hc => ?_, fun hc => ?_, fun hi =>
    ⟨fun hc => ?_, ?_⟩⟩
  · cases p with
    | incoming => exact hin.imp_right And.left
    | outgoing => exact hout.imp_right And.left
  · obtain heq | hcodes := hin
    · exact heq.symm.trans hc
    · rw [hc] at hcodes
      obtain ⟨-, ⟨_, hmem⟩ | ⟨_, _, hmem⟩⟩ := codes_cases hcodes <;> simp at hmem
  · obtain heq | hcodes := hout
    · exact heq.symm
    · obtain ⟨-, ⟨_, hmem⟩ | ⟨_, hp, _⟩⟩ := codes_cases hcodes
      · simp only [List.mem_cons, List.not_mem_nil, or_false] at hc hmem
        obtain hm | hm | hm := hmem <;> simp [hm] at hc
      · cases hp
  · obtain heq | hcodes := hin
    · exact heq.symm
    · obtain ⟨-, ⟨_, hmem⟩ | ⟨hno, _⟩⟩ := codes_cases hcodes
      · simp only [List.mem_cons, List.not_mem_nil, or_false] at hc hmem
        obtain hm | hm | hm := hmem <;> simp [hm] at hc
      · rw [hi] at hno
        cases hno
  · exact hin.imp (fun heq => heq.symm.trans hc) fun hcodes => (codes_cases hcodes).1 hc
  · obtain heq | hcodes := hin
    · exact heq.symm.trans hc
    · rw [hc] at hcodes
      obtain ⟨-, ⟨hyes, _⟩ | ⟨_, _, hmem⟩⟩ := codes_cases hcodes
      · rw [hi] at hyes
        cases hyes
      · simp at hmem
  · obtain heq | hcodes := hout
    · exact heq
    · obtain ⟨-, ⟨hyes, _⟩ | ⟨_, hp, _⟩⟩ := codes_cases hcodes
      · rw [hi] at hyes
        cases hyes
      · cases hp

end Sys2Proof.Machine

/-! O11, O12, O14 and O16: what a step changes (R22, R27, R28, R30, R35, R36, R188). -/

namespace Sys2Proof.Machine

open Host (Outcome)

section
variable {s t : State} {i : Instr}

/-! ### The instructions that the block runs -/

theorem byteRow_not_wireUnit (hi : Instr.isByteRow i = true) : i.isWireUnit = false := by
  cases i with
  | decUnesc | decEscInline | decEscSuspend | decErrStart | decCsum | decSof | decErrNostart
  | decLenMsb | decLenLsb | decErrOverlen | decCkOk | decCkFail | decStore => rfl
  | _ => cases hi

theorem entryRow_not_wireUnit (s : State) : (entryRow s).isWireUnit = false := by
  unfold entryRow
  split_ifs <;> rfl

theorem encoderRow_not_wireUnit (e : EncTemps) (s : State) : (encoderRow e s).isWireUnit = false := by
  unfold encoderRow
  split
  any_goals rfl
  split_ifs <;> rfl

/-! ### One move of the block -/

/-- No code but `UnexpectedPacketStart` depends on the mode (R188). -/
def stepCodes (mode : Bool) (_ : PacketId) (c : ErrorCode) : Prop :=
  c = .unexpectedPacketStart → mode = true

/-- A step of the block keeps the frame and takes at most `n` bytes from the head of `RXQ`. -/
def Takes (n : Nat) (s t : State) : Prop :=
  ∃ taken q, taken.length ≤ n ∧ s.rxq = taken ++ q ∧
    Keeps (stepCodes s.cfg.escapedMode) (s.withRxq q) t

theorem takes_of_follows {codes : PacketId → ErrorCode → Prop} (h : Follows codes s t)
    (hcodes : ∀ p c, codes p c → stepCodes s.cfg.escapedMode p c) : Takes 1 s t := by
  obtain ⟨q, hq, hkeeps⟩ := h
  obtain hq | ⟨x, hq⟩ := hq
  · exact ⟨[], q, Nat.zero_le 1, hq, hkeeps.mono hcodes⟩
  · exact ⟨[x], q, le_rfl, hq, hkeeps.mono hcodes⟩

theorem Takes.mono {m n : Nat} (h : Takes m s t) (hmn : m ≤ n) : Takes n s t := by
  obtain ⟨taken, q, hlen, hrest⟩ := h
  exact ⟨taken, q, hlen.trans hmn, hrest⟩

/-- `Takes` does not read what the schedule and the host's queue hold. -/
theorem Takes.congr {n : Nat} {s' : State} (h : Takes n s t) (hs : s'.kept = s.kept) :
    Takes n s' t := by
  obtain ⟨taken, q, hlen, hq, hkeeps⟩ := h
  have hrxq : s'.rxq = s.rxq := congrArg (fun u => u.rxq) hs
  have hcfg : s'.cfg = s.cfg := congrArg (fun u => u.cfg) hs
  refine ⟨taken, q, hlen, hrxq.trans hq, ?_⟩
  rw [hcfg]
  exact hkeeps.congr (congrArg (State.withRxq q) hs) rfl

theorem exec_takes (hi : i.isWireUnit = false) (h : exec i s = .next t) : Takes 2 s t :=
  (takes_of_follows (exec_follows hi h) fun _ _ hcodes => hcodes.2).mono (Nat.le_succ 1)

theorem unit_takes {b : Byte} {q : List Byte} (hq : s.rxq = b :: q) :
    Takes 2 s (referenceByte b (s.withRxq q)) := by
  obtain ⟨taken, r, hlen, hr, hkeeps⟩ :=
    takes_of_follows (follows_referenceByte (s := s.withRxq q) b) fun _ _ hcodes => hcodes.2.1
  exact ⟨b :: taken, r, Nat.succ_le_succ hlen, by rw [hq, ← withRxq_rxq q s, hr]; rfl, hkeeps⟩

theorem blockStep_takes {fine : Bool} (h : blockStep fine s = .next t) : Takes 2 s t := by
  cases hcall : s.call with
  | idle =>
    cases hq : s.hostq with
    | nil =>
      rw [blockStep_idle_nil hcall hq] at h
      obtain rfl := Outcome.next.inj h
      exact ⟨[], s.rxq, Nat.zero_le 2, rfl, .refl⟩
    | cons i rest =>
      cases hi : i.isHostOp with
      | true =>
        rw [blockStep_idle_hostOp hcall hq hi] at h
        have htakes := (takes_of_follows (hostOp_keeps hi h).follows fun _ _ hcodes => hcodes.2).mono
          (Nat.le_succ 1)
        exact htakes.congr rfl
      | false =>
        rw [blockStep_idle_refused hcall hq hi] at h
        cases h
  | entry => exact exec_takes (entryRow_not_wireUnit s) (blockStep_entry hcall ▸ h)
  | serialize e => exact exec_takes (encoderRow_not_wireUnit e s) (blockStep_serialize hcall ▸ h)
  | drain =>
    cases hflight : s.flight with
    | some f =>
      exact exec_takes (byteRow_not_wireUnit (selectRow_isByteRow f s))
        (blockStep_flight hcall hflight ▸ h)
    | none =>
      cases fine with
      | true => exact exec_takes (i := .decFetch) rfl (blockStep_row hcall hflight ▸ h)
      | false =>
        cases hq : s.rxq with
        | nil => exact exec_takes (i := .decFetch) rfl (blockStep_drained hcall hflight hq ▸ h)
        | cons b q =>
          rw [blockStep_draining ⟨hcall, hflight⟩ hq] at h
          obtain rfl := Outcome.next.inj h
          exact unit_takes hq

/-! ### Steps -/

/-- A step is a byte that arrives, a byte that is sent, or a move of the block. -/
theorem step_cases (h : step s = .next t) :
    (∃ b ts, s.turns = .arrive b :: ts ∧ t = arriveByte b { s with turns := ts }) ∨
    (∃ ts, s.turns = .send :: ts ∧ t = sendByte { s with turns := ts }) ∨ Takes 2 s t := by
  cases hturns : s.turns with
  | nil => exact .inr (.inr (blockStep_takes (step_turns_nil hturns ▸ h)))
  | cons turn ts =>
    cases turn with
    | arrive b =>
      rw [step_arrive_turn hturns] at h
      exact .inl ⟨b, ts, rfl, (Outcome.next.inj h).symm⟩
    | send =>
      rw [step_send_turn hturns] at h
      exact .inr (.inl ⟨ts, rfl, (Outcome.next.inj h).symm⟩)
    | row =>
      rw [step_row_turn hturns] at h
      exact .inr (.inr ((blockStep_takes h).congr rfl))
    | unit =>
      rw [step_unit_turn hturns] at h
      exact .inr (.inr ((blockStep_takes h).congr rfl))

theorem sendByte_cases (s : State) :
    (s.txq = [] ∧ sendByte s = s) ∨
      ∃ b q, s.txq = b :: q ∧ sendByte s = { s with txq := q, sent := s.sent ++ [b] } := by
  cases hq : s.txq with
  | nil => exact .inl ⟨rfl, sendByte_nil hq⟩
  | cons b q => exact .inr ⟨b, q, rfl, sendByte_cons hq⟩

/-- What a step keeps of the parameters, the packets and the cursor. -/
theorem step_keeps (h : step s = .next t) :
    t.cfg = s.cfg ∧ s.inp.Keeps s.cfg.mIn (stepCodes s.cfg.escapedMode .incoming) t.inp ∧
      s.out.Keeps s.cfg.mOut (stepCodes s.cfg.escapedMode .outgoing) t.out ∧
      (s.cursorInv → t.cursorInv) ∧
      (t.dec.escaping = true → s.dec.escaping = true ∨ s.cfg.escapedMode = true) := by
  obtain ⟨b, ts, _, rfl⟩ | ⟨ts, _, rfl⟩ | ⟨_, q, _, _, hkeeps⟩ := step_cases h
  · exact ⟨rfl, .refl, .refl, id, .inl⟩
  · obtain ⟨_, hsend⟩ | ⟨b, q, _, hsend⟩ := sendByte_cases { s with turns := ts } <;> rw [hsend] <;>
      exact ⟨rfl, .refl, .refl, id, .inl⟩
  · exact ⟨hkeeps.cfg, hkeeps.inp, hkeeps.out, hkeeps.cursor, hkeeps.escaping⟩

end

/-- Settles O11, with the parameters fixed. -/
theorem stepKeepsInvariant : Obligations.StepKeepsInvariant := by
  rintro s t ⟨hin, hout, hcursor⟩ h
  obtain ⟨hcfg, hkeepsIn, hkeepsOut, hkeepsCursor, _⟩ := step_keeps h
  exact ⟨hcfg ▸ hkeepsIn.inv hin, hcfg ▸ hkeepsOut.inv hout, hkeepsCursor hcursor⟩

/-- Settles O12. -/
theorem parametersFixedCapacityGrows : Obligations.ParametersFixedCapacityGrows := by
  intro s t h
  obtain ⟨hcfg, hin, hout, _⟩ := step_keeps h
  exact ⟨hcfg, hin.cap, hout.cap⟩

/-- Settles O14, by the three kinds of step. -/
theorem queuesFirstInFirstOut : Obligations.QueuesFirstInFirstOut := by
  intro s t h
  obtain ⟨b, ts, hturns, rfl⟩ | ⟨ts, hturns, rfl⟩ | ⟨taken, q, hlen, hq, hkeeps⟩ := step_cases h
  · exact ⟨.inl ⟨b, ts, hturns, rfl⟩, .inr ⟨rfl, [], (List.append_nil _).symm⟩⟩
  · obtain ⟨_, hsend⟩ | ⟨b, q, hq, hsend⟩ := sendByte_cases { s with turns := ts } <;> rw [hsend]
    · exact ⟨.inr ⟨[], Nat.zero_le 2, rfl⟩, .inr ⟨rfl, [], (List.append_nil _).symm⟩⟩
    · exact ⟨.inr ⟨[], Nat.zero_le 2, rfl⟩, .inl ⟨b, ts, hturns, hq, rfl⟩⟩
  · exact ⟨.inr ⟨taken, hlen, by rw [hkeeps.rxq]; exact hq⟩, .inr ⟨hkeeps.sent, hkeeps.txq⟩⟩

/-- Settles O16: what sets `DEC.escaping` and what records code 2 needs escaped mode. -/
theorem unescapedModeNeverSuspends : Obligations.UnescapedModeNeverSuspends := by
  intro s t hmode h
  obtain ⟨_, hin, _, _, hescaping⟩ := step_keeps h
  refine ⟨fun he => (hescaping he).resolve_right (by simp [hmode]), fun hc => ?_⟩
  obtain heq | hcode := hin.errorCode
  · exact heq.symm.trans hc
  · have hescaped := hcode hc
    rw [hmode] at hescaped
    cases hescaped

end Sys2Proof.Machine
